-- ==== Sys2Proof/Word.lean ====
section
/-!
DEFINITION. The word types of the VG1840, the channels, and the two shapes of stored data that every block uses:
one value per channel, and a sparse table from place numbers to values.
-/

namespace Sys2Proof

/-- A byte of a frame, a record or the flash (12 R214). -/
abbrev Byte := BitVec 8

/-- A sample word as it stands in sample memory (04 R70, 12 R218). -/
abbrev SampleWord := BitVec 16

/-- A 10-bit word on a lane of the host link (10 R183). -/
abbrev LaneWord := BitVec 10

/-- A tick number of the 48-bit tick counter (02 R16). -/
abbrev Tick := BitVec 48

/-- The four channels (00_scope, Names). -/
inductive Ch where
  | ch1 | ch2 | ch3 | ch4
  deriving DecidableEq, Repr

/-- One value for each channel. -/
structure PerCh (α : Type) where
  ch1 : α
  ch2 : α
  ch3 : α
  ch4 : α
  deriving DecidableEq, Repr

/-- A sparse table: cells in strictly rising order of place, none of them equal to what an unlisted place reads as.
What an unlisted place reads as is given where the table is read (Machine/Table.lean). -/
structure Table (α : Type) where
  cells : List (Nat × α)
  deriving DecidableEq, Repr

/-- What the outside world makes of the flash between two reads of it: flash addresses and the bytes they now hold. -/
abbrev Upset := List Host.Cell

end Sys2Proof
end

