-- ==== Sys2Proof/Syntax.lean ====
section
/-!
DEFINITION. The commands of the block: one constructor of `Instr` for each row of spec/opcode_table.json. A row that
stands for a host command carries the frame's TAG and its payload fields at the widths of 12 R215 and R220. A row that
stands for an event carries what the outside world presents at it.
-/

namespace Sys2Proof

/-- A good frame of the host link, without its check (12 R215). -/
structure Frame where
  type : Byte
  tag : Byte
  payload : List Byte
  deriving DecidableEq, Repr

/-- The steps of opcode_table.json. -/
inductive Instr where
  /-- POWER_ON_RESET (09 R178); `upset`: what the flash holds when the operation stops. -/
  | powerOnReset (upset : Upset)
  /-- RESET (10 R191). -/
  | reset (tag : Byte)
  /-- RESET_TAKEN (09 R177). -/
  | resetTaken
  /-- SAMPLE (01 R1): each port's code where its data-valid strobe is asserted, and the EXT TRIG IN pin; `split`: among the
  words of a group this sample completes, how many are handed before the write grant that is due ends, none where its end
  does not fall among them (04 R72); `apart`: the sample does not fall together with a STOP or ACQ-class change taken since the
  last sample (02 R38, 03 R62; log 44). -/
  | sample (a b c d : Option (BitVec 10)) (ext : Bool) (split : Option Nat := none) (apart : Bool := false)
  | stageTimeout
  | holdoffExpiry
  | autoTimerExpiry
  | trigOutEnd
  | frameTick
  | backlightPeriod
  /-- KEY_SCAN (07 R122): bit k is the raw state of key k, set for pressed. -/
  | keyScan (pressed : BitVec 96)
  /-- ENCODER_SAMPLING (07 R126): bit e is phase line A, phase line B, of encoder e. -/
  | encoderSampling (phaseA phaseB : BitVec 8)
  | windowEnd
  | repeatTimerExpiry
  /-- PRESS, RELEASE and REPEAT of a key (07 R131). -/
  | press (key : Nat)
  | release (key : Nat)
  | repeatKey (key : Nat)
  /-- TURN of encoder 0..7 carrying n (07 R128). -/
  | turn (encoder : Nat) (n : Int)
  | idleTimerExpiry
  | clickEnd
  | alarmEnd
  | arbitration
  | acqWriteGrantEnd
  | drawReadGrantEnd
  | readoutGrantEnd
  /-- SEGMENT_COMPLETE (03 R50); `drawFirst`: whether an idle Rasterizer's take of the completed buffer is taken before
  the selection that follows the completion (05 R81). -/
  | segmentComplete (drawFirst : Bool)
  | reexamination
  | rasterizerTake
  | dataFrameReady
  /-- The flash rows (09 R169, R172, R176, R179) carry what the flash turns out to hold. -/
  | flashEraseEnd (upset : Upset)
  | flashProgramEnd (upset : Upset)
  | flashVerifyEnd (upset : Upset)
  | limitTimerExpiry (upset : Upset)
  | recallReadEnd (upset : Upset)
  | powerOnRecallEnd (upset : Upset)
  /-- The rows of the incoming lane (10 R183 to R185) carry the 10-bit words that arrive up to their event: here the EOF of
  a frame. -/
  | frameReceived (words : List LaneWord)
  /-- FRAME_ABANDONED (10 R184). -/
  | frameAbandoned (words : List LaneWord)
  /-- UNKNOWN_TYPE (10 R187). -/
  | unknownType (frame : Frame)
  | transmissionStart
  | transmissionEnd
  | status (tag : Byte)
  | loadCorr (tag channel range : Byte) (zero gain : BitVec 16)
  /-- 48 bytes: red, green, blue of entries 0..15. -/
  | loadClut (tag channel : Byte) (colours : List Byte)
  /-- 24 bytes: red, green, blue of entries 0..7. -/
  | loadPalette (tag : Byte) (colours : List Byte)
  /-- 20 scan rows. -/
  | loadGlyph (tag code : Byte) (rows : List Byte)
  | loadAction (tag control mode action slot field : Byte) (step : BitVec 32) (rep click threshold factor : Byte)
  | loadLed (tag led source direct current : Byte)
  | setField (tag field : Byte) (value : BitVec 64)
  | getField (tag field : Byte)
  | setStage (tag stage : Byte) (src cond level hyst pol limit onmatch timeout : BitVec 64)
  | getSetup (tag selector : Byte)
  /-- 102 values in ascending order of field id. -/
  | loadSetup (tag : Byte) (values : List (BitVec 64))
  /-- A slot and a name of 16 characters. -/
  | save (tag slot : Byte) (name : List Byte)
  | recall (tag slot : Byte)
  | undo (tag : Byte)
  | defaultSetup (tag : Byte)
  | erase (tag slot : Byte)
  | setPoweron (tag slot : Byte)
  | slotInfo (tag : Byte)
  | run (tag : Byte)
  | single (tag : Byte)
  | stop (tag : Byte)
  | force (tag : Byte)
  | buffers (tag : Byte)
  | describe (tag buffer : Byte)
  | segments (tag buffer : Byte) (first count : BitVec 16)
  | pin (tag buffer : Byte)
  | unpin (tag buffer : Byte)
  | read (tag buffer channel : Byte) (segment : BitVec 16) (first count : BitVec 32)
  | readCancel (tag : Byte)
  | clearPersist (tag : Byte)
  /-- A start cell and a run of 0..2046 codes. -/
  | text (tag row column : Byte) (codes : List Byte)
  | cursor (tag state row column : Byte)
  | panelMode (tag access : Byte)
  | led (tag led direct : Byte)
  | alarm (tag value : Byte)
  /-- BADLEN (10 R187). -/
  | badlen (frame : Frame)
  /-- CODE_ERROR_OUTSIDE_FRAME (10 R183, R184), with the words up to the code error. -/
  | codeErrorOutsideFrame (words : List LaneWord := [])
  /-- SYMBOL_ALIGNMENT_FOUND (10 R183), with the words up to the comma symbol. -/
  | symbolAlignmentFound (words : List LaneWord := [])
  | pixelFormed
  | blPwmHighTimeEnd
  deriving DecidableEq, Repr

end Sys2Proof
end

