-- ==== Sys2Proof/Decode.lean ====
section
/-!
DEFINITION. The commands that words spell by the table's bits. No row of spec/opcode_table.json gives bits: a command
arrives as a frame of the host link (Machine/Operands.lean, `decodeFrame`) or as an event.
-/

namespace Sys2Proof

/-- The command a word of the table's bits spells: none, since no row has bits. -/
def decodeTableWord (_nbits _w : Nat) : Option Instr := none

end Sys2Proof
end

