-- ==== Sys2Proof/Config.lean ====
section
/-!
DEFINITION. What the spec fixes for every VG1840 as counts, and the values it leaves open.
-/

namespace Sys2Proof.Config

/-- FREE VALUE (log 10): scan rows of the fixed character set of the glyph ROM, by code and scan row. 06 R115 says that
codes 0x21..0x7E "form the part's character set" and does not give the glyphs. Bit 7 is pixel column 0. -/
opaque glyphRom : Nat → Nat → BitVec 8

/-- FREE VALUE (log 36): which of the three comma codes K28.1, K28.5 and K28.7 is IDLE. 10 R183 names the three control
symbols and gives no codes; IDLE and SOF carry the comma pattern. -/
opaque idleChoice : Fin 3

/-- FREE VALUE (log 36): which of the two other comma codes is SOF. -/
opaque sofChoice : Fin 2

/-- FREE VALUE (log 36): which of the ten control codes that remain is EOF. -/
opaque eofChoice : Fin 10

/-- Bytes of the longest frame (10 R184). -/
def frameBytesMax : Nat := 2054

/-- Words of the sample memory (04 R68). -/
def memoryWords : Nat := 134217728

/-- Entries of the writer FIFO (04 R71). -/
def writerFifoDepth : Nat := 4096

/-- Words of a burst (04 R74). -/
def burstWords : Nat := 64

/-- Frames of the command FIFO (10 R186). -/
def commandFifoDepth : Nat := 8

/-- Places of the response queue (10 R189). -/
def responseDepth : Nat := 16

/-- Reports of the report queue (10 R193). -/
def reportDepth : Nat := 32

/-- Words of the fetch store (11 R206). -/
def fetchStoreDepth : Nat := 8192

/-- Words of a DATA frame (11 R207). -/
def dataFrameWords : Nat := 1000

/-- Pixels of a frame, 800 columns by 480 rows (00_scope). -/
def framePixels : Nat := 384000

end Sys2Proof.Config
end

