-- ==== Sys2Proof/Machine/Bytes.lean ====
section
/-!
DEFINITION. Byte order (12 R214), the two checks (09 R164, 10 R185), and timer comparison (02 R17).
-/

namespace Sys2Proof

/-- `n` bytes of a number, most significant byte first (12 R214). -/
def beBytes : Nat → Nat → List Byte
  | 0, _ => []
  | n + 1, v => BitVec.ofNat 8 (v / 256 ^ n) :: beBytes n v

/-- The number that bytes hold, most significant byte first (12 R214). -/
def ofBytes (bs : List Byte) : Nat := bs.foldl (fun a b => a * 256 + b.toNat) 0

/-- A signed number in `n` bytes, two's complement (12 R214). -/
def signedBytes (n : Nat) (v : Int) : List Byte := beBytes n (v % (256 ^ n : Nat)).toNat

/-- One yes/no or on/off byte (12 R214). -/
def flagByte (b : Bool) : Byte := if b then 1 else 0

/-- A flags byte whose named flags stand from bit 0 up (12 R214). -/
def flagsByte : List Bool → Byte
  | [] => 0
  | b :: rest => (flagsByte rest <<< (1 : Nat)) ||| flagByte b

/-- One bit of the frame check: generator 0x1021, most significant bit first (10 R185). -/
def crc16Bits : Nat → BitVec 16 → BitVec 16
  | 0, c => c
  | n + 1, c => crc16Bits n (if c.msb then (c <<< (1 : Nat)) ^^^ 0x1021#16 else c <<< (1 : Nat))

/-- The frame check over bytes: the register starts at 0xFFFF and the final value is not inverted (10 R185). -/
def crc16 (bs : List Byte) : BitVec 16 :=
  bs.foldl (fun c b => crc16Bits 8 (c ^^^ (b.setWidth 16).shiftLeft 8)) 0xFFFF#16

/-- One bit of the flash check in its least-significant-bit-first form (09 R164). -/
def crc32Bits : Nat → BitVec 32 → BitVec 32
  | 0, c => c
  | n + 1, c => crc32Bits n (if c.getLsbD 0 then (c >>> (1 : Nat)) ^^^ 0xEDB88320#32 else c >>> (1 : Nat))

/-- The check over a header or a slot record: generator 0x04C11DB7, register all ones, bytes least significant bit
first, final value inverted (09 R164). -/
def crc32 (bs : List Byte) : BitVec 32 :=
  ~~~(bs.foldl (fun c b => crc32Bits 8 (c ^^^ (b.setWidth 32))) 0xFFFFFFFF#32)

/-- Whether a tick is at or after the tick an expiry is taken at, on the 48-bit counter (02 R17): no duration of the
part reaches half of the counter's range. -/
def reached (now expiry : Tick) : Bool := decide ((now - expiry).toNat < 2 ^ 47)

/-- A duration in ticks (02 R17). -/
def ticks (n : Nat) : Tick := BitVec.ofNat 48 n

/-- A duration in milliseconds, 10^6 ticks each (00_scope, Time). -/
def millis (n : Nat) : Tick := BitVec.ofNat 48 (n * 1000000)

end Sys2Proof
end

