-- ==== Sys2Proof/Machine/Types.lean ====
section
/-!
DEFINITION. The names and records the spec gives the twelve blocks. The codes of 12 R220 are in Machine/Codes.lean.
-/

namespace Sys2Proof.Machine

/-! ## Enumerated values (12 R220 and 08 R147) -/

/-- Run state (03 R40). -/
inductive RunState where
  | stop | run | single
  deriving DecidableEq, Repr

/-- Acquisition state (03 R40). -/
inductive AcqState where
  | stopped | waitBuffer | arming | ready | triggered
  deriving DecidableEq, Repr

/-- Buffer state (03 R53). -/
inductive BufState where
  | free | filling | new | drawing | shown
  deriving DecidableEq, Repr

/-- ACQ.MODE (08 R147). -/
inductive AcqMode where
  | sample | peak | hires
  deriving DecidableEq, Repr

/-- Kind of a fire (02 R35). -/
inductive FireKind where
  | sequence | auto | forced
  deriving DecidableEq, Repr

/-- SRC of a stage (02, section 2.2). -/
inductive Src where
  | chan (c : Ch)
  | ext
  deriving DecidableEq, Repr

/-- COND of a stage (02, section 2.2). -/
inductive Cond where
  | rise | fall | either | widthLt | widthGt | count | stay
  deriving DecidableEq, Repr

/-- MEM.PROMOTE (04 R73). -/
inductive Promote where
  | none | draw | readout
  deriving DecidableEq, Repr

/-- DSP.PERSIST (05 R91). -/
inductive Persist where
  | off | variable | infinite
  deriving DecidableEq, Repr

/-- DSP.GRID (06 R107). -/
inductive Grid where
  | full | axes | frame | none
  deriving DecidableEq, Repr

/-- Panel access state (07 R136). -/
inductive Access where
  | local | remote | lockout
  deriving DecidableEq, Repr

/-- Mode of a panel action entry (07 R129). -/
inductive ActMode where
  | off | report | local | both
  deriving DecidableEq, Repr

/-- Action of a panel action entry (07 R129). -/
inductive Action where
  | none | runStop | single | force | clearPersist | recall | default | undo | localReturn | toggle | step | adjust
  deriving DecidableEq, Repr

/-- Source of an LED entry (07 R141). -/
inductive LedSource where
  | direct | run | trigWait | single | chan (c : Ch) | remote | storeBusy
  deriving DecidableEq, Repr

/-- Direct or indicated state of an LED (07 R141, R142). -/
inductive LedState where
  | off | on | slow | fast
  deriving DecidableEq, Repr

/-- Current of an LED (07 R141). -/
inductive LedCurrent where
  | low | high
  deriving DecidableEq, Repr

/-- Kind of a panel event (07 R131). -/
inductive EventKind where
  | press | release | repeat_ | turn
  deriving DecidableEq, Repr

/-- Outcome of a panel event (07 R132). -/
inductive PanelOutcome where
  | none | taken | suppressed | refused
  deriving DecidableEq, Repr

/-- Kind of a SETUP report (12 R217). -/
inductive SetupKind where
  | recall | default | undo
  deriving DecidableEq, Repr

/-- Cause of a RUNSTATE report (03 R66). -/
inductive RunCause where
  | panel | singleDone | rearmFailed
  deriving DecidableEq, Repr

/-- Slot state (09 R165). -/
inductive SlotState where
  | empty | valid | writing | damaged
  deriving DecidableEq, Repr

/-- Header status (09 R166). -/
inductive HeaderStatus where
  | good | erased | bad | writing
  deriving DecidableEq, Repr

/-- Store operation (09 R168, R170, R171). -/
inductive StoreOp where
  | save | erase | setPoweron
  deriving DecidableEq, Repr

/-- Phase of a store write (09 R169). -/
inductive StorePhase where
  | erase | program | verify
  deriving DecidableEq, Repr

/-- Activity of the Setup Store (09 R167). -/
inductive Activity where
  | idle | reading | writing | starting
  deriving DecidableEq, Repr

/-- Status of a DATA frame (11 R207). -/
inductive DataStatus where
  | more | complete | cancelled | gone
  deriving DecidableEq, Repr

/-- Reset kind of a POWERUP report (09 R180). -/
inductive ResetKind where
  | powerOn | command
  deriving DecidableEq, Repr

/-- Result codes (10 R188, 12 R216). -/
inductive ResultCode where
  | ok | clamped | busy | state | range | notloaded | limit | nochan | damaged | empty | badcmd | badlen | full | linkerr
  deriving DecidableEq, Repr

/-! ## Sample Path -/

/-- An entry of the correction table (01, section 1.2). -/
structure CorrEntry where
  zero : Nat
  gain : Nat
  loaded : Bool
  deriving DecidableEq, Repr

/-- The decimation accumulator of one channel once its group has a member (01 R9 to R11). -/
structure Acc where
  first : Int
  firstClip : Bool
  min : Int
  minClip : Bool
  max : Int
  maxClip : Bool
  sum : Int
  anyClip : Bool
  deriving DecidableEq, Repr

/-- What the Sample Path holds for the segment being filled (01 R8). -/
structure Grouping where
  mode : AcqMode
  decim : Nat
  chans : List Ch
  deriving DecidableEq, Repr

/-- The Sample Path (chapter 1). `grouping` is present exactly while a segment is being filled. -/
structure SamplePath where
  corr : Table CorrEntry
  held : PerCh (BitVec 10)
  codes : PerCh Int
  grouping : Option Grouping
  acc : PerCh (Option Acc)
  groupPos : Nat
  clipCount : Nat
  deriving DecidableEq, Repr

/-! ## Trigger Sequencer -/

/-- A stage record as the sequencer reads it (02, section 2.2). -/
structure StageRec where
  src : Src
  cond : Cond
  level : Int
  hyst : Int
  pos : Bool
  limit : Nat
  fire : Bool
  timeout : Nat
  deriving DecidableEq, Repr

/-- The measurement state of the current stage (02 R23). -/
structure Measure where
  capture : Option Tick
  edges : Nat
  anchor : Tick
  deriving DecidableEq, Repr

/-- A pulse of TRIG OUT (02 R36): the line is high from tick `rises` until the pulse's end, at tick `ends`, is taken. -/
structure Pulse where
  rises : Tick
  ends : Tick
  deriving DecidableEq, Repr

/-- The Trigger Sequencer (chapter 2). `timeout` and `holdoff` hold the tick the timer expires at; `autoStart` the
tick the auto timer started at; `trigOut` the pulse in progress. `tick` is the number the next sample will carry; `begun`,
the model's own (log 35), whether an event timed at that tick has been taken before that sample (02 R17); `halted`, the
model's own (log 44), whether a STOP or an ACQ-class change has been taken since the last sample (02 R38). -/
structure Trigger where
  tick : Tick
  begun : Bool
  halted : Bool
  ext : Bool
  extCount : Nat
  enabled : Bool
  stage : Nat
  comps : List Bool
  meas : Option Measure
  timeout : Option Tick
  holdoff : Option Tick
  autoStart : Option Tick
  autoPending : Bool
  forcePending : Bool
  trigOut : Option Pulse
  deriving DecidableEq, Repr

/-! ## Acquisition Controller and Buffer Pool -/

/-- The fire record in the record of the segment in progress, with the trigger group's ordinal and the ring origin
(03 R49). -/
structure FireRec where
  tick : Tick
  sub : Nat
  kind : FireKind
  ordinal : Nat
  origin : Nat
  deriving DecidableEq, Repr

/-- The record of the segment in progress (03 R47). -/
structure SegRec where
  gapped : Bool
  fire : Option FireRec
  deriving DecidableEq, Repr

/-- The values captured at arming (03 R45): channels in ascending order with their ranges, mode, D, N, L, pre and S. -/
structure Captured where
  chans : List (Ch × Nat)
  mode : AcqMode
  decim : Nat
  len : Nat
  stored : Nat
  pre : Nat
  segs : Nat
  deriving DecidableEq, Repr

/-- A segment entry (03 R56). -/
structure SegEntry where
  tick : Tick
  sub : Nat
  kind : FireKind
  origin : Nat
  clips : Nat
  gapped : Bool
  deriving DecidableEq, Repr

/-- The Acquisition Controller (chapter 3). `setId` is the model's own (log 16). -/
structure Acq where
  run : RunState
  state : AcqState
  cur : Option Nat
  segIdx : Nat
  fill : Nat
  ordinal : Nat
  seg : Option SegRec
  captured : Option Captured
  table : List SegEntry
  nextSeq : BitVec 32
  skip : Nat
  setId : Nat
  deriving DecidableEq, Repr

/-- A descriptor (03 R55). -/
structure Descriptor where
  seq : BitVec 32
  values : Captured
  gapped : Bool
  clipped : Bool
  stale : Bool
  segs : List SegEntry
  deriving DecidableEq, Repr

/-- A buffer record (03 R53). -/
structure Buffer where
  state : BufState
  pinned : Bool
  stale : Bool
  desc : Option Descriptor
  deriving DecidableEq, Repr

/-- The Buffer Pool (03, section 3.5): B, the buffer records and the completion list. -/
structure Pool where
  count : Nat
  bufs : Table Buffer
  completion : List Nat
  deriving DecidableEq, Repr

/-! ## Sample Memory Controller -/

/-- An entry of the writer FIFO (04 R71). -/
structure FifoEntry where
  addr : Nat
  word : SampleWord
  setId : Nat
  seg : Nat
  deriving DecidableEq, Repr

/-- Words of a read grant: `count` ring positions from `pos` in the ring of `len` words that begins at word `base`
(04 R69, R74). -/
structure Burst where
  base : Nat
  len : Nat
  pos : Nat
  count : Nat
  deriving DecidableEq, Repr

/-- What a grant moves (04 R74). A write grant is `attached` while its entries still stand in the FIFO; a read grant is
`wanted` until its requester withdraws it (04 R76). -/
inductive GrantJob where
  | write (entries : List FifoEntry) (attached : Bool)
  | draw (burst : Burst) (wanted : Bool)
  | readout (burst : Burst) (wanted : Bool)
  deriving DecidableEq, Repr

/-- A grant in progress and the tick it ends. -/
structure Grant where
  ends : Tick
  job : GrantJob
  deriving DecidableEq, Repr

/-- The Sample Memory Controller (chapter 4). -/
structure MemCtl where
  fifo : List FifoEntry
  grant : Option Grant
  deriving DecidableEq, Repr

/-! ## Rasterizer -/

/-- What the Rasterizer holds in DRAWING (05 R79, R87): the buffer, the place of the channel, the segment and column,
the next ring position, the words of the segment delivered, and the column accumulator: the values of the current
column taken, their rows in rising order, and the previous row. -/
structure Drawing where
  buf : Nat
  place : Nat
  seg : Nat
  col : Nat
  nextPos : Nat
  delivered : Nat
  inCol : Nat
  rows : List Nat
  prev : Option Nat
  deriving DecidableEq, Repr

/-- The Rasterizer (chapter 5): IDLE, or DRAWING. -/
structure Raster where
  drawing : Option Drawing
  deriving DecidableEq, Repr

/-! ## Screen Compositor -/

/-- A colour (06, section 6.3). -/
structure Colour where
  red : Byte
  green : Byte
  blue : Byte
  deriving DecidableEq, Repr

/-- A latched marker: its plane row, and whether the row was held (06 R108). -/
structure Marker where
  row : Nat
  held : Bool
  deriving DecidableEq, Repr

/-- The attribute set (06 R112). -/
structure Attr where
  half : Bool
  inverse : Bool
  underline : Bool
  blank : Bool
  blink : Bool
  deriving DecidableEq, Repr

/-- The cursor (06 R117). -/
structure Cursor where
  on : Bool
  row : Nat
  col : Nat
  deriving DecidableEq, Repr

/-- A pixel on the pixel output (06 R102). -/
structure Pixel where
  row : Nat
  col : Nat
  colour : Colour
  deriving DecidableEq, Repr

/-- The Screen Compositor (chapter 6). -/
structure Compositor where
  frame : BitVec 32
  nextFrame : Nat
  slow : Bool
  fast : Bool
  ground : PerCh (Option Marker)
  trigMark : Option (Ch × Marker)
  clut : Table Colour
  palette : Table Colour
  glyphs : Table Byte
  text : Table Byte
  cursor : Cursor
  rowSets : Table Attr
  cellSet : Attr
  scan : Option Nat
  pixel : Option Pixel
  dim : Bool
  level : Nat
  pwm : Bool
  pwmEnd : Option Tick
  nextPeriod : Tick
  deriving DecidableEq, Repr

/-! ## Panel Scanner -/

/-- A key (07 R122, R140). -/
structure Key where
  pressed : Bool
  count : Nat
  consumed : Bool
  deriving DecidableEq, Repr

/-- An encoder (07 R126, R127): the phase reference (A, B), the partial transition count and the window detent count. -/
structure Encoder where
  ref : Option (Bool × Bool)
  trans : Int
  detents : Int
  deriving DecidableEq, Repr

/-- An entry of the panel action table (07 R129). -/
structure ActionEntry where
  mode : ActMode
  action : Action
  slot : Option Nat
  field : Option Nat
  step : Option Int
  rep : Bool
  click : Bool
  threshold : Nat
  factor : Nat
  deriving DecidableEq, Repr

/-- An entry of the LED table (07 R141). -/
structure LedEntry where
  source : LedSource
  direct : LedState
  current : LedCurrent
  deriving DecidableEq, Repr

/-- A panel event with its control code; n is 0 unless it is a TURN (07 R131, R132). -/
structure PanelEvent where
  kind : EventKind
  code : Nat
  n : Int
  deriving DecidableEq, Repr

/-- An event whose local action (a RECALL of `slot`) its owner has not answered, with the mode and action of the entry
it is handled under (07 R131). -/
structure Offered where
  event : PanelEvent
  mode : ActMode
  action : Action
  slot : Nat
  deriving DecidableEq, Repr

/-- The Panel Scanner (chapter 7). Timers hold the tick they expire at. -/
structure Panel where
  keys : Table Key
  repeatKey : Option (Nat × Tick)
  encs : Table Encoder
  actions : Table ActionEntry
  leds : Table LedEntry
  access : Access
  idle : Option Tick
  alarm : Bool
  click : Option Tick
  alarmEnd : Option Tick
  nextScan : Tick
  nextEnc : Tick
  nextWindow : Tick
  events : List PanelEvent
  offered : Option Offered
  deriving DecidableEq, Repr

/-! ## Setup Controller and Setup Store -/

/-- How a field's integer is read, with its range, list or number of names (08 R147, R148). -/
inductive FieldKind where
  | numeric (lo hi : Int)
  | list (values : List Int)
  | enumerated (names : Nat)
  deriving DecidableEq, Repr

/-- Change class of a field; DRAW with the planes it names (08 R148, R154). -/
inductive FieldClass where
  | live
  | trig
  | draw (planes : List Ch)
  | acq
  deriving DecidableEq, Repr

/-- A row of the field catalogue (08 R148). -/
structure FieldInfo where
  kind : FieldKind
  cls : FieldClass
  deriving DecidableEq, Repr

/-- A setup record: the values of the 102 catalogue fields by field id, held as what differs from the default setup
(08 R146; Machine/Catalogue.lean). -/
abbrev Setup := Table Int

/-- The Setup Controller (chapter 8). -/
structure SetupCtl where
  working : Setup
  shadow : Setup
  deriving DecidableEq, Repr

/-- A slot of the slot state table (09 R165); the name is empty unless the state is VALID. -/
structure Slot where
  state : SlotState
  name : List Byte
  deriving DecidableEq, Repr

/-- The header record (09 R166). -/
structure Header where
  slot : Nat
  status : HeaderStatus
  deriving DecidableEq, Repr

/-- The write record (09, section 9.4). -/
structure Write where
  op : StoreOp
  slot : Nat
  snapshot : Setup
  name : List Byte
  tag : Byte
  phase : StorePhase
  limit : Tick
  collided : Bool
  deriving DecidableEq, Repr

/-- The read of a slot for a recall, and whether the panel asked for it (09 R176). -/
structure Reading where
  slot : Nat
  panel : Bool
  deriving DecidableEq, Repr

/-- The Setup Store (chapter 9). -/
structure Store where
  slots : Table Slot
  header : Header
  activity : Activity
  write : Option Write
  reading : Option Reading
  heldPanel : Bool
  deferred : List Byte
  deferredByWrite : Bool
  resetKind : ResetKind
  deriving DecidableEq, Repr

/-! ## Link Controller -/

/-- A response (10 R188). -/
structure Resp where
  type : Byte
  tag : Byte
  code : ResultCode
  data : List Byte
  deriving DecidableEq, Repr

/-- The report kinds with their data (12 R217). -/
inductive ReportBody where
  | panel (event : PanelEvent) (action : Action) (outcome : PanelOutcome) (code : ResultCode)
  | field (id : Nat) (value : Int)
  | setup (kind : SetupKind) (slot : Option Nat)
  | runstate (runState : RunState) (acqState : AcqState) (cause : RunCause) (code : ResultCode)
  | acq (buffer : Nat) (seq : BitVec 32) (completions skipped : Nat) (gapped clipped : Bool)
  | storeSlot (op : StoreOp) (slot : Nat) (tag : Byte) (ok : Bool) (state : SlotState) (collided : Bool)
  | storeHeader (slot : Nat) (tag : Byte) (ok : Bool) (status : HeaderStatus) (collided : Bool)
  | wake (code : Nat) (kind : EventKind)
  | powerup (kind : ResetKind) (named placed : Nat) (fallback : Bool) (status : HeaderStatus) (damaged : Nat)
  deriving DecidableEq, Repr

/-- A report in the queue, with its LOST mark (10 R193, R196). -/
structure Report where
  lost : Bool
  body : ReportBody
  deriving DecidableEq, Repr

/-- The receive framer: waiting for a frame, or receiving one with its partial frame (10 R184). -/
inductive Framer where
  | waiting
  | receiving (bytes : List Byte)
  deriving DecidableEq, Repr

/-- A frame in transmission, from the transmitter's pick on: its bytes from TYPE to the check, the running disparity its SOF
begins at, and the tick the lane falls free; its SOF begins up to 7 ticks after the pick (10 R183, R197). -/
structure Tx where
  bytes : List Byte
  disparity : Bool
  ends : Tick
  deriving DecidableEq, Repr

/-- The Link Controller (chapter 10). A running disparity is true where it is positive: `rxDisparity` after the last symbol
received, `txDisparity` at the tick `idleFrom`, from which the idle outgoing lane has sent IDLE (10 R183). -/
structure Link where
  aligned : Bool
  rxDisparity : Bool
  framer : Framer
  fifo : List Frame
  waiting : Option Instr
  resp : List Resp
  reports : List Report
  lost : Bool
  lane : Option Tx
  txDisparity : Bool
  idleFrom : Tick
  deriving DecidableEq, Repr

/-! ## Readout Engine -/

/-- The stream record (11 R205). `base`, `len` and `perIndex` place its ring (04 R69) and give the words of a record
index; `pos` is the next ring position to request and `next` the next record index to request; `remaining` counts the
record indices not yet requested; `cut` is the first record index of the next frame, `sent` the index after the last one
carried by a frame whose transmission has begun, and `last` the index after the stream's last. -/
structure Stream where
  buf : Nat
  seq : BitVec 32
  chan : Ch
  seg : Nat
  first : Nat
  next : Nat
  remaining : Nat
  tag : Byte
  collided : Bool
  base : Nat
  len : Nat
  perIndex : Nat
  pos : Nat
  cut : Nat
  sent : Nat
  last : Nat
  deriving DecidableEq, Repr

/-- A DATA frame (11 R207). -/
structure DataFrame where
  tag : Byte
  first : Nat
  count : Nat
  status : DataStatus
  collided : Bool
  words : List SampleWord
  deriving DecidableEq, Repr

/-- The Readout Engine (chapter 11). The head of `frames` is the ready DATA frame; last frames formed while an earlier
stream's last frame is still ready stand behind it (log 20). -/
structure Readout where
  stream : Option Stream
  words : List SampleWord
  frames : List DataFrame
  deriving DecidableEq, Repr

end Sys2Proof.Machine
end

