-- ==== Sys2Proof/Machine/Lane.lean ====
section
/-!
DEFINITION. The symbols of the two lanes under 8b/10b coding with running disparity (10 R183), and the symbols of a frame.
The code is the standard one, which the spec names and does not print (log 36). A word holds abcdei fghj with bit a as its
most significant bit; a disparity is true where it is positive.
-/

namespace Sys2Proof.Machine

/-- A symbol of a lane: one of the three control symbols, or a data byte (10 R183). -/
inductive LaneSymbol where
  | idle
  | sof
  | eof
  | data (b : Byte)
  deriving DecidableEq, Repr

/-- Number of ones in a word. -/
def onesIn {n : Nat} (w : BitVec n) : Nat := ((List.range n).filter (fun i => w.getLsbD i)).length

/-- The running disparity after a word or one of its two parts: an unbalanced one changes it. -/
def disparityAfter {n : Nat} (rd : Bool) (w : BitVec n) : Bool := rd != decide (2 * onesIn w ≠ n)

/-- The six-bit parts abcdei of data values 0..31 at negative disparity. -/
def sixBitParts : List (BitVec 6) :=
  [0b100111, 0b011101, 0b101101, 0b110001, 0b110101, 0b101001, 0b011001, 0b111000,
   0b111001, 0b100101, 0b010101, 0b110100, 0b001101, 0b101100, 0b011100, 0b010111,
   0b011011, 0b100011, 0b010011, 0b110010, 0b001011, 0b101010, 0b011010, 0b111010,
   0b110011, 0b100110, 0b010110, 0b110110, 0b001110, 0b101110, 0b011110, 0b101011]

/-- The four-bit parts fghj of data values 0..7 at negative disparity. -/
def fourBitParts : List (BitVec 4) := [0b1011, 0b1001, 0b0101, 0b1100, 0b1101, 0b1010, 0b0110, 0b1110]

/-- The six-bit part of a value: at positive disparity an unbalanced part, and that of 7, is complemented. -/
def sixBit (rd : Bool) (x : Nat) : BitVec 6 :=
  let p := sixBitParts.getD x 0
  if rd && (decide (2 * onesIn p ≠ 6) || decide (x = 7)) then ~~~p else p

/-- The four-bit part of a value after the six-bit part of `x`: at positive disparity an unbalanced part, and that of 3, is
complemented; 7 takes its alternate part where the other would give five equal bits in a row. -/
def fourBit (rd : Bool) (x y : Nat) : BitVec 4 :=
  let alternate := decide (y = 7) && (if rd then decide (x = 11 ∨ x = 13 ∨ x = 14) else decide (x = 17 ∨ x = 18 ∨ x = 20))
  let p := if alternate then 0b0111#4 else fourBitParts.getD y 0
  if rd && (decide (2 * onesIn p ≠ 4) || decide (y = 3)) then ~~~p else p

/-- The word of a data byte: its low five bits, then its high three. -/
def dataWord (rd : Bool) (b : Byte) : LaneWord :=
  let six := sixBit rd (b.toNat % 32)
  six ++ fourBit (disparityAfter rd six) (b.toNat % 32) (b.toNat / 32)

/-- The control codes at negative disparity: the comma codes K28.1, K28.5 and K28.7, then K28.0, K28.2, K28.3, K28.4,
K28.6, K23.7, K27.7, K29.7 and K30.7. -/
def controlCodes : List LaneWord :=
  [0b0011111001, 0b0011111010, 0b0011111000, 0b0011110100, 0b0011110101, 0b0011110011, 0b0011110010,
   0b0011110110, 0b1110101000, 0b1101101000, 0b1011101000, 0b0111101000]

/-- The codes of IDLE, SOF and EOF at negative disparity, under a choice of each. -/
def chosenCode (idle : Fin 3) (sof : Fin 2) (eof : Fin 10) : LaneSymbol → LaneWord
  | .idle => controlCodes.getD idle 0
  | .sof => (controlCodes.eraseIdx idle).getD sof 0
  | .eof => ((controlCodes.eraseIdx idle).eraseIdx sof).getD eof 0
  | .data _ => 0

/-- The word of a symbol at a running disparity (10 R183). -/
def symbolWord (rd : Bool) : LaneSymbol → LaneWord
  | .data b => dataWord rd b
  | x =>
    let w := chosenCode Config.idleChoice Config.sofChoice Config.eofChoice x
    if rd then ~~~w else w

/-- The data byte that a word is at a running disparity; none where it is the word of no byte. -/
def wordData (rd : Bool) (w : LaneWord) : Option Byte :=
  let six : BitVec 6 := w.extractLsb' 4 6
  let four : BitVec 4 := w.extractLsb' 0 4
  match (List.range 32).find? (fun x => decide (sixBit rd x = six)) with
  | none => none
  | some x =>
    ((List.range 8).find? (fun y => decide (fourBit (disparityAfter rd six) x y = four))).map
      (fun y => BitVec.ofNat 8 (32 * y + x))

/-- The symbol that a word is at a running disparity; none is a code error: no valid code, or one that breaks the disparity
(10 R183), or a control code that no symbol uses (log 36). -/
def wordSymbol (rd : Bool) (w : LaneWord) : Option LaneSymbol :=
  match wordData rd w with
  | some b => some (.data b)
  | none => [LaneSymbol.idle, .sof, .eof].find? (fun x => decide (symbolWord rd x = w))

/-- The comma symbol, IDLE or SOF, that a word is, with the disparity it begins at; a receiver without alignment looks for
no other (10 R183). -/
def wordComma (w : LaneWord) : Option (LaneSymbol × Bool) :=
  [(LaneSymbol.idle, false), (.idle, true), (.sof, false), (.sof, true)].find? (fun p => decide (symbolWord p.2 p.1 = w))

/-- The words of symbols sent one after the other from a running disparity on. -/
def symbolWords : Bool → List LaneSymbol → List LaneWord
  | _, [] => []
  | rd, x :: rest => symbolWord rd x :: symbolWords (disparityAfter rd (symbolWord rd x)) rest

/-- The running disparity after symbols sent one after the other. -/
def disparityOver (rd : Bool) (xs : List LaneSymbol) : Bool := (symbolWords rd xs).foldl disparityAfter rd

/-- The symbols of a frame: SOF, its bytes, EOF (10 R183). -/
def frameSymbols (bytes : List Byte) : List LaneSymbol := .sof :: (bytes.map .data ++ [.eof])

/-- The symbols for which a frame sent occupies the lane: its own and the IDLE that follows it (10 R197). -/
def Tx.symbols (t : Tx) : List LaneSymbol := frameSymbols t.bytes ++ [.idle]

/-- The running disparity after `n` IDLE symbols, of which two leave it as it was (`idleDisparity_eq`). -/
def idleDisparity (rd : Bool) (n : Nat) : Bool := disparityOver rd (List.replicate (n % 2) .idle)

end Sys2Proof.Machine
end

