-- ==== Sys2Proof/Machine/Table.lean ====
section
/-!
DEFINITION. The operations over per-channel values and sparse tables. A table is read against `d`, what an unlisted
place reads as; a write of that value removes the cell, so equal contents are equal tables.
-/

namespace Sys2Proof

/-- The number of a channel, 1..4. -/
def Ch.num : Ch → Nat
  | .ch1 => 1
  | .ch2 => 2
  | .ch3 => 3
  | .ch4 => 4

/-- The channel of a number 1..4. -/
def Ch.ofNum : Nat → Option Ch
  | 1 => some .ch1
  | 2 => some .ch2
  | 3 => some .ch3
  | 4 => some .ch4
  | _ => none

/-- The channels in ascending order. -/
def Ch.all : List Ch := [.ch1, .ch2, .ch3, .ch4]

/-- The value of one channel. -/
def PerCh.get {α : Type} (p : PerCh α) : Ch → α
  | .ch1 => p.ch1
  | .ch2 => p.ch2
  | .ch3 => p.ch3
  | .ch4 => p.ch4

/-- Replace the value of one channel. -/
def PerCh.set {α : Type} (p : PerCh α) (c : Ch) (v : α) : PerCh α :=
  match c with
  | .ch1 => { p with ch1 := v }
  | .ch2 => { p with ch2 := v }
  | .ch3 => { p with ch3 := v }
  | .ch4 => { p with ch4 := v }

/-- The same value for every channel. -/
def PerCh.const {α : Type} (v : α) : PerCh α := ⟨v, v, v, v⟩

/-- The values a function of the channel gives. -/
def PerCh.of {α : Type} (f : Ch → α) : PerCh α := ⟨f .ch1, f .ch2, f .ch3, f .ch4⟩

/-- The first cell listed for a place. -/
def Table.find {α : Type} : List (Nat × α) → Nat → Option α
  | [], _ => none
  | (k, v) :: rest, i => if k = i then some v else Table.find rest i

/-- Insert or replace the cell of a place, keeping the order. -/
def Table.put {α : Type} : List (Nat × α) → Nat → α → List (Nat × α)
  | [], i, v => [(i, v)]
  | (k, w) :: rest, i, v =>
    if i < k then (i, v) :: (k, w) :: rest
    else if i = k then (i, v) :: rest
    else (k, w) :: Table.put rest i v

/-- Remove the cell of a place. -/
def Table.drop {α : Type} : List (Nat × α) → Nat → List (Nat × α)
  | [], _ => []
  | (k, w) :: rest, i => if k = i then Table.drop rest i else (k, w) :: Table.drop rest i

/-- The table with no cell listed. -/
def Table.empty {α : Type} : Table α := ⟨[]⟩

/-- Read a place. -/
def Table.get {α : Type} (t : Table α) (d : Nat → α) (i : Nat) : α := (Table.find t.cells i).getD (d i)

/-- Write a place. -/
def Table.set {α : Type} [DecidableEq α] (t : Table α) (d : Nat → α) (i : Nat) (v : α) : Table α :=
  if v = d i then ⟨Table.drop t.cells i⟩ else ⟨Table.put t.cells i v⟩

/-- Write consecutive places from `i`. -/
def Table.setRun {α : Type} [DecidableEq α] (t : Table α) (d : Nat → α) (i : Nat) : List α → Table α
  | [] => t
  | v :: rest => Table.setRun (t.set d i v) d (i + 1) rest

/-- Write a list of cells, first to last. -/
def Table.setAll {α : Type} [DecidableEq α] (t : Table α) (d : Nat → α) : List (Nat × α) → Table α
  | [] => t
  | c :: rest => Table.setAll (t.set d c.1 c.2) d rest

/-- Read `n` consecutive places from `i`. -/
def Table.getRun {α : Type} (t : Table α) (d : Nat → α) (i : Nat) : Nat → List α
  | 0 => []
  | n + 1 => t.get d i :: Table.getRun t d (i + 1) n

/-- Cells in strictly rising order of place. -/
def Table.rising {α : Type} : List (Nat × α) → Bool
  | [] => true
  | (k, _) :: rest => rest.all (fun c => decide (k < c.1)) && Table.rising rest

/-- The canonical form: strictly rising places, and no cell equal to what an unlisted place reads as. -/
def Table.wf {α : Type} [DecidableEq α] (t : Table α) (d : Nat → α) : Bool :=
  Table.rising t.cells && t.cells.all (fun c => decide (c.2 ≠ d c.1))

/-- Keep the cells a value function leaves different from 0 (used for decay, 05 R92). -/
def Table.mapNat (t : Table Nat) (f : Nat → Nat) : Table Nat :=
  ⟨(t.cells.map (fun c => (c.1, f c.2))).filter (fun c => decide (c.2 ≠ 0))⟩

end Sys2Proof
end

