-- ==== Sys2Proof/Machine/Catalogue.lean ====
section
/-!
DEFINITION. The field catalogue and the default setup (08 R147, R148, R162), how an offered value is stored (08 R149),
the setup record of 12 R219, and the fields under the names the other chapters use.
-/

namespace Sys2Proof.Machine

/-- The 19 decimation factors (08 R148). -/
def decimValues : List Int :=
  [1, 2, 5, 10, 20, 50, 100, 200, 500, 1000, 2000, 5000, 10000, 20000, 50000, 100000, 200000, 500000, 1000000]

/-- The 12 record lengths (08 R148). -/
def lengthValues : List Int :=
  [700, 1400, 3500, 7000, 14000, 35000, 70000, 140000, 350000, 700000, 1400000, 3500000]

/-- The catalogue rows of a channel: ENABLE, RANGE, POS, WEIGHT (08 R148). -/
def channelField (c : Ch) : Nat → FieldInfo
  | 0 => ⟨.enumerated 2, .acq⟩
  | 1 => ⟨.numeric 0 11, .acq⟩
  | 2 => ⟨.numeric (-400) 400, .draw [c]⟩
  | _ => ⟨.numeric 1 64, .live⟩

/-- The catalogue rows of a stage: SRC, COND, LEVEL, HYST, POL, LIMIT, ONMATCH, TIMEOUT (08 R148). -/
def stageField : Nat → FieldInfo
  | 0 => ⟨.enumerated 5, .trig⟩
  | 1 => ⟨.enumerated 7, .trig⟩
  | 2 => ⟨.numeric (-512) 511, .live⟩
  | 3 => ⟨.numeric 1 64, .trig⟩
  | 4 => ⟨.enumerated 2, .trig⟩
  | 5 => ⟨.numeric 1 10000000000, .trig⟩
  | 6 => ⟨.enumerated 2, .trig⟩
  | _ => ⟨.numeric 0 10000000000, .trig⟩

/-- The general rows of the catalogue (08 R148). -/
def generalField : Nat → Option FieldInfo
  | 0x01 => some ⟨.enumerated 3, .acq⟩
  | 0x02 => some ⟨.list decimValues, .acq⟩
  | 0x03 => some ⟨.list lengthValues, .acq⟩
  | 0x04 => some ⟨.numeric 0 100, .acq⟩
  | 0x05 => some ⟨.numeric 1 1024, .acq⟩
  | 0x06 => some ⟨.list [2, 4, 8], .acq⟩
  | 0x08 => some ⟨.enumerated 2, .trig⟩
  | 0x09 => some ⟨.numeric 1 8, .trig⟩
  | 0x0A => some ⟨.numeric 0 10000000000, .trig⟩
  | 0x0B => some ⟨.numeric 10 10000, .live⟩
  | 0x20 => some ⟨.enumerated 3, .draw Ch.all⟩
  | 0x21 => some ⟨.numeric 1 255, .live⟩
  | 0x22 => some ⟨.enumerated 2, .draw Ch.all⟩
  | 0x23 => some ⟨.enumerated 4, .live⟩
  | 0x24 => some ⟨.numeric 0 23, .live⟩
  | 0x25 => some ⟨.numeric 0 31, .live⟩
  | 0x26 => some ⟨.numeric 0 255, .live⟩
  | 0x27 => some ⟨.numeric 0 255, .live⟩
  | 0x28 => some ⟨.numeric 0 60, .live⟩
  | 0x30 => some ⟨.enumerated 2, .live⟩
  | 0x31 => some ⟨.enumerated 2, .live⟩
  | 0x32 => some ⟨.enumerated 3, .live⟩
  | _ => none

/-- The field catalogue (08 R148). Ids not listed are not in it. -/
def catalogue (id : Nat) : Option FieldInfo :=
  if 0x10 ≤ id ∧ id ≤ 0x1F then
    (Ch.ofNum ((id - 0x10) / 4 + 1)).map (fun c => channelField c ((id - 0x10) % 4))
  else if 0x40 ≤ id ∧ id ≤ 0x7F then some (stageField ((id - 0x40) % 8))
  else generalField id

/-- The 102 field ids in ascending order, the order of a setup record (12 R219). -/
def fieldIds : List Nat :=
  List.range' 0x01 6 ++ List.range' 0x08 4 ++ List.range' 0x10 16 ++ List.range' 0x20 9 ++ List.range' 0x30 3
    ++ List.range' 0x40 64

/-- The default values of a stage (08 R162). -/
def stageDefault : Nat → Int
  | 3 => 8
  | 5 => 100
  | 6 => 1
  | _ => 0

/-- The default values of a channel: ENABLE is ON for CH1 alone (08 R162). -/
def channelDefault (c : Nat) : Nat → Int
  | 0 => if c = 1 then 1 else 0
  | 1 => 6
  | 2 => 0
  | _ => 16

/-- The default setup, held in ROM as slot 0 (08 R162). -/
def defaultValue (id : Nat) : Int :=
  if 0x10 ≤ id ∧ id ≤ 0x1F then channelDefault ((id - 0x10) / 4 + 1) ((id - 0x10) % 4)
  else if 0x40 ≤ id ∧ id ≤ 0x7F then stageDefault ((id - 0x40) % 8)
  else
    match id with
    | 0x02 => 1
    | 0x03 => 7000
    | 0x04 => 50
    | 0x05 => 1
    | 0x06 => 4
    | 0x09 => 1
    | 0x0B => 100
    | 0x20 => 1
    | 0x21 => 32
    | 0x22 => 1
    | 0x26 => 255
    | 0x27 => 48
    | 0x28 => 10
    | 0x30 => 1
    | 0x31 => 1
    | _ => 0

/-- The default setup as a record. -/
def Setup.default : Setup := Table.empty

/-- The value of a field. -/
def Setup.val (w : Setup) (id : Nat) : Int := Table.get w defaultValue id

/-- Place a value in a field. -/
def Setup.put (w : Setup) (id : Nat) (v : Int) : Setup := Table.set w defaultValue id v

/-- Hold a value to a range (00_scope, "clamped"). -/
def clampInt (lo hi v : Int) : Int := if v < lo then lo else if hi < v then hi else v

/-- The smallest list value not below the offered one, or the largest (08 R149); the list is ascending. -/
def snapTo : List Int → Int → Int
  | [], v => v
  | [x], _ => x
  | x :: y :: rest, v => if v ≤ x then x else snapTo (y :: rest) v

/-- The stored value for an offered one, or none where the value is refused with RANGE (08 R149). -/
def storedValue (k : FieldKind) (v : Int) : Option Int :=
  match k with
  | .numeric lo hi => some (clampInt lo hi v)
  | .list vs => some (snapTo vs v)
  | .enumerated n => if 0 ≤ v ∧ v < n then some v else none

/-- Whether a value is one the field may hold (08 R146). -/
def inCatalogue (k : FieldKind) (v : Int) : Bool :=
  match k with
  | .numeric lo hi => decide (lo ≤ v ∧ v ≤ hi)
  | .list vs => vs.contains v
  | .enumerated n => decide (0 ≤ v ∧ v < n)

/-- Every field of a setup holds a value within its catalogue range (08 R146). -/
def Setup.inRange (w : Setup) : Bool :=
  fieldIds.all (fun id =>
    match catalogue id with
    | some f => inCatalogue f.kind (w.val id)
    | none => true)

/-- Whether a field is two-valued (08 R147). -/
def twoValued (id : Nat) : Bool :=
  match catalogue id with
  | some f => decide (f.kind = .enumerated 2)
  | none => false

/-- The value a panel STEP or ADJUST with a delta gives (08 R153). -/
def steppedValue (k : FieldKind) (v delta : Int) : Int :=
  match k with
  | .numeric lo hi => clampInt lo hi (v + delta)
  | .list vs => vs.getD (clampInt 0 (vs.length - 1) (vs.idxOf v + delta)).toNat v
  | .enumerated n => clampInt 0 (n - 1) (v + delta)

/-- The fields whose values differ (08 R154). -/
def changedIds (old new : Setup) : List Nat := fieldIds.filter (fun id => decide (old.val id ≠ new.val id))

/-- Whether a field is of class ACQ. -/
def isAcq (id : Nat) : Bool :=
  match catalogue id with
  | some f => decide (f.cls = .acq)
  | none => false

/-- Whether a field is of class TRIG. -/
def isTrig (id : Nat) : Bool :=
  match catalogue id with
  | some f => decide (f.cls = .trig)
  | none => false

/-- The planes a field's DRAW class names; none for the other classes. -/
def planesOf (id : Nat) : List Ch :=
  match catalogue id with
  | some ⟨_, .draw ps⟩ => ps
  | _ => []

/-- Place the stored values of a record's values, given with the ids they belong to, counting those clamped or snapped;
none where an enumerated value is not an index of its names (08 R152, R160). -/
def placeRecord : List (Nat × Int) → Setup × Nat → Option (Setup × Nat)
  | [], acc => some acc
  | (id, v) :: rest, (w, n) =>
    match catalogue id with
    | none => placeRecord rest (w, n)
    | some f =>
      match storedValue f.kind v with
      | none => none
      | some u => placeRecord rest (w.put id u, if u = v then n else n + 1)

/-- The setup that a record of 102 values stores, and how many values were clamped or snapped. -/
def recordSetup (vs : List Int) : Option (Setup × Nat) := placeRecord (fieldIds.zip vs) (Setup.default, 0)

/-- The setup record of 816 bytes (12 R219). -/
def setupBytes (w : Setup) : List Byte := fieldIds.flatMap (fun id => signedBytes 8 (w.val id))

/-- A signed 64-bit value from its 8 bytes. -/
def valueOfBytes (bs : List Byte) : Int := (BitVec.ofNat 64 (ofBytes bs)).toInt

/-- The values of a setup record's bytes, `n` of them. -/
def recordValues : Nat → List Byte → List Int
  | 0, _ => []
  | n + 1, bs => valueOfBytes (bs.take 8) :: recordValues n (bs.drop 8)

/-! ## The fields by name -/

/-- Id of field k of a channel (0 ENABLE, 1 RANGE, 2 POS, 3 WEIGHT). -/
def chanId (c : Ch) (k : Nat) : Nat := 0x10 + 4 * (c.num - 1) + k

/-- Id of field k of stage s. -/
def stageId (s k : Nat) : Nat := 0x40 + 8 * s + k

/-- ACQ.MODE. -/
def Setup.mode (w : Setup) : AcqMode := if w.val 0x01 = 0 then .sample else if w.val 0x01 = 1 then .peak else .hires

/-- ACQ.DECIM, the factor D. -/
def Setup.decim (w : Setup) : Nat := (w.val 0x02).toNat

/-- ACQ.LENGTH, the record length N. -/
def Setup.length (w : Setup) : Nat := (w.val 0x03).toNat

/-- ACQ.PRETRIG. -/
def Setup.pretrig (w : Setup) : Nat := (w.val 0x04).toNat

/-- ACQ.SEGMENTS. -/
def Setup.segments (w : Setup) : Nat := (w.val 0x05).toNat

/-- ACQ.BUFFERS. -/
def Setup.buffers (w : Setup) : Nat := (w.val 0x06).toNat

/-- Whether TRG.MODE is AUTO. -/
def Setup.auto (w : Setup) : Bool := decide (w.val 0x08 = 0)

/-- TRG.STAGES. -/
def Setup.stages (w : Setup) : Nat := (w.val 0x09).toNat

/-- TRG.HOLDOFF, in ticks. -/
def Setup.holdoff (w : Setup) : Tick := ticks (w.val 0x0A).toNat

/-- TRG.AUTOTIME, in ticks. -/
def Setup.autoTime (w : Setup) : Tick := millis (w.val 0x0B).toNat

/-- Whether CHn.ENABLE is ON. -/
def Setup.enabled (w : Setup) (c : Ch) : Bool := decide (w.val (chanId c 0) = 1)

/-- CHn.RANGE. -/
def Setup.range (w : Setup) (c : Ch) : Nat := (w.val (chanId c 1)).toNat

/-- CHn.POS. -/
def Setup.pos (w : Setup) (c : Ch) : Int := w.val (chanId c 2)

/-- CHn.WEIGHT. -/
def Setup.weight (w : Setup) (c : Ch) : Nat := (w.val (chanId c 3)).toNat

/-- DSP.PERSIST. -/
def Setup.persist (w : Setup) : Persist :=
  if w.val 0x20 = 0 then .off else if w.val 0x20 = 1 then .variable else .infinite

/-- DSP.DECAY. -/
def Setup.decay (w : Setup) : Nat := (w.val 0x21).toNat

/-- Whether DSP.STYLE is VECTORS. -/
def Setup.vectors (w : Setup) : Bool := decide (w.val 0x22 = 1)

/-- DSP.GRID. -/
def Setup.grid (w : Setup) : Grid :=
  if w.val 0x23 = 0 then .full else if w.val 0x23 = 1 then .axes else if w.val 0x23 = 2 then .frame else .none

/-- DSP.ORDER. -/
def Setup.order (w : Setup) : Nat := (w.val 0x24).toNat

/-- DSP.TEXTATTR as the attribute flags it sums (06 R112). -/
def Setup.textAttr (w : Setup) : Attr :=
  let v := (w.val 0x25).toNat
  ⟨v.testBit 0, v.testBit 1, v.testBit 2, v.testBit 3, v.testBit 4⟩

/-- DSP.BACKLIGHT. -/
def Setup.backlight (w : Setup) : Nat := (w.val 0x26).toNat

/-- DSP.DIMLEVEL. -/
def Setup.dimLevel (w : Setup) : Nat := (w.val 0x27).toNat

/-- DSP.IDLE, in minutes. -/
def Setup.idleMinutes (w : Setup) : Nat := (w.val 0x28).toNat

/-- Whether PNL.CLICK is ON. -/
def Setup.click (w : Setup) : Bool := decide (w.val 0x30 = 1)

/-- Whether PNL.AUTOREMOTE is ON. -/
def Setup.autoRemote (w : Setup) : Bool := decide (w.val 0x31 = 1)

/-- MEM.PROMOTE. -/
def Setup.promote (w : Setup) : Promote :=
  if w.val 0x32 = 0 then .none else if w.val 0x32 = 1 then .draw else .readout

/-- SRC of a stage from its index. -/
def srcOf (v : Int) : Src :=
  if v = 0 then .chan .ch1 else if v = 1 then .chan .ch2 else if v = 2 then .chan .ch3
  else if v = 3 then .chan .ch4 else .ext

/-- COND of a stage from its index. -/
def condOf (v : Int) : Cond :=
  if v = 0 then .rise else if v = 1 then .fall else if v = 2 then .either else if v = 3 then .widthLt
  else if v = 4 then .widthGt else if v = 5 then .count else .stay

/-- Stage record s (02, section 2.2). -/
def Setup.stage (w : Setup) (s : Nat) : StageRec :=
  { src := srcOf (w.val (stageId s 0)), cond := condOf (w.val (stageId s 1)),
    level := w.val (stageId s 2), hyst := w.val (stageId s 3), pos := decide (w.val (stageId s 4) = 0),
    limit := (w.val (stageId s 5)).toNat, fire := decide (w.val (stageId s 6) = 1),
    timeout := (w.val (stageId s 7)).toNat }

/-- The channels whose CHn.ENABLE is ON, in ascending order. -/
def Setup.enabledChans (w : Setup) : List Ch := Ch.all.filter w.enabled

end Sys2Proof.Machine
end

