-- ==== Sys2Proof/Machine/State.lean ====
section
/-!
DEFINITION. The state of the block: one record for each of the twelve blocks of 00_scope, the sample memory, the flash,
and the model's queue of commands; its value after power-on reset; and the reasons a step can stop.
-/

namespace Sys2Proof.Machine

/-- The machine. -/
structure State where
  sp : SamplePath
  trg : Trigger
  acq : Acq
  pool : Pool
  smc : MemCtl
  mem : Table SampleWord
  ras : Raster
  planes : PerCh (Table Nat)
  comp : Compositor
  panel : Panel
  setup : SetupCtl
  store : Store
  flash : Table Byte
  link : Link
  readout : Readout
  pending : List Instr
  deriving DecidableEq, Repr

/-- Why the machine stops. -/
inductive Fault where
  /-- A grant addresses a word outside the 134 217 728 words of the sample memory (04 R68). Raised by
  ACQ_WRITE_GRANT_END, DRAW_READ_GRANT_END and READOUT_GRANT_END. Safe: no state that runs reach does so, since the LIMIT
  start check bounds every record set by its buffer (03 R41, 04 R68). -/
  | noSuchWord
  deriving DecidableEq, Repr

/-- Why a command has no meaning. -/
inductive Refusal where
  /-- An instruction of the table that has no meaning yet. Safe. -/
  | notModelled (mnemonic : String)
  /-- A command whose operands no frame or event of its row can carry, such as a name of 15 characters (log 21).
  Raised by any row whose operands fail `Instr.wf`. Safe. -/
  | illFormed
  deriving DecidableEq, Repr

/-- The Sample Path after power-on reset (01 R15). -/
def SamplePath.reset : SamplePath :=
  { corr := Table.empty, held := PerCh.const 512, codes := PerCh.const 0, grouping := none, acc := PerCh.const none,
    groupPos := 0, clipCount := 0 }

/-- The Trigger Sequencer after either reset (02 R39). -/
def Trigger.reset : Trigger :=
  { tick := 0, begun := false, halted := false, ext := false, extCount := 0, enabled := false, stage := 0, comps := [], meas := none,
    timeout := none, holdoff := none, autoStart := none, autoPending := false, forcePending := false, trigOut := none }

/-- The Acquisition Controller after either reset (03 R67). -/
def Acq.reset : Acq :=
  { run := .stop, state := .stopped, cur := none, segIdx := 0, fill := 0, ordinal := 0, seg := none, captured := none,
    table := [], nextSeq := 1, skip := 0, setId := 0 }

/-- The Buffer Pool after either reset, B being that of the default setup (03 R67, 08 R163). -/
def Pool.reset : Pool := { count := 4, bufs := Table.empty, completion := [] }

/-- The Sample Memory Controller after a reset that finds no grant in progress (04 R77). -/
def MemCtl.reset : MemCtl := { fifo := [], grant := none }

/-- The Screen Compositor after power-on reset (06 R121). -/
def Compositor.reset : Compositor :=
  { frame := 0, nextFrame := 0, slow := true, fast := true, ground := PerCh.const none, trigMark := none,
    clut := Table.empty, palette := Table.empty, glyphs := Table.empty, text := Table.empty, cursor := ⟨false, 0, 0⟩,
    rowSets := Table.empty, cellSet := ⟨false, false, false, false, false⟩, scan := none, pixel := none, dim := false,
    level := 0, pwm := false, pwmEnd := none, nextPeriod := 0 }

/-- The Panel Scanner after power-on reset (07 R145): the idle timer runs from tick 0 with the 10 minutes of the default
setup; scan 1, sampling 1 and the end of window 1 are due (07 R122, R126, R127). -/
def Panel.reset : Panel :=
  { keys := Table.empty, repeatKey := none, encs := Table.empty, actions := Table.empty, leds := Table.empty,
    access := .local, idle := some 600000000000, alarm := false, click := none, alarmEnd := none, nextScan := 2000000,
    nextEnc := 100000, nextWindow := 20000000, events := [], offered := none }

/-- The Setup Controller from either reset until power-on recall (08 R163). -/
def SetupCtl.reset : SetupCtl := { working := Setup.default, shadow := Setup.default }

/-- The Setup Store from either reset until power-on recall (09 R182). -/
def Store.reset : Store :=
  { slots := Table.empty, header := ⟨0, .erased⟩, activity := .starting, write := none, reading := none,
    heldPanel := false, deferred := [], deferredByWrite := false, resetKind := .powerOn }

/-- The Link Controller after power-on reset (10 R198): the outgoing lane sends IDLE from the first tick on (10 R183); the
disparities are negative (log 36). -/
def Link.reset : Link :=
  { aligned := false, rxDisparity := false, framer := .waiting, fifo := [], waiting := none, resp := [], reports := [],
    lost := false, lane := none, txDisparity := false, idleFrom := 0 - 1 }

/-- The Readout Engine after either reset (11 R213). -/
def Readout.reset : Readout := { stream := none, words := [], frames := [] }

/-- The machine right after power-on reset: power-on recall has begun and has not ended (09 R179). -/
def State.reset : State :=
  { sp := SamplePath.reset, trg := Trigger.reset, acq := Acq.reset, pool := Pool.reset, smc := MemCtl.reset,
    mem := Table.empty, ras := ⟨none⟩, planes := PerCh.const Table.empty, comp := Compositor.reset,
    panel := Panel.reset, setup := SetupCtl.reset, store := Store.reset, flash := Table.empty, link := Link.reset,
    readout := Readout.reset, pending := [] }

end Sys2Proof.Machine
end

