-- ==== Sys2Proof/Machine/Ops.lean ====
section
/-!
DEFINITION. The named operations over the state that several blocks share: time, the tables and memories, the buffer
records, the response queue and the report queue.
-/

namespace Sys2Proof.Machine

/-! ## The blocks replaced one at a time -/

def State.withSp (s : State) (x : SamplePath) : State := { s with sp := x }
def State.withTrg (s : State) (x : Trigger) : State := { s with trg := x }
def State.withAcq (s : State) (x : Acq) : State := { s with acq := x }
def State.withPool (s : State) (x : Pool) : State := { s with pool := x }
def State.withSmc (s : State) (x : MemCtl) : State := { s with smc := x }
def State.withMem (s : State) (x : Table SampleWord) : State := { s with mem := x }
def State.withRas (s : State) (x : Raster) : State := { s with ras := x }
def State.withPlanes (s : State) (x : PerCh (Table Nat)) : State := { s with planes := x }
def State.withComp (s : State) (x : Compositor) : State := { s with comp := x }
def State.withPanel (s : State) (x : Panel) : State := { s with panel := x }
def State.withSetup (s : State) (x : SetupCtl) : State := { s with setup := x }
def State.withStore (s : State) (x : Store) : State := { s with store := x }
def State.withFlash (s : State) (x : Table Byte) : State := { s with flash := x }
def State.withLink (s : State) (x : Link) : State := { s with link := x }
def State.withReadout (s : State) (x : Readout) : State := { s with readout := x }
def State.withPending (s : State) (x : List Instr) : State := { s with pending := x }

/-! ## Time (02 R16, R17) -/

/-- Tick number of the most recent sample taken. -/
def State.lastTick (s : State) : Tick := s.trg.tick - 1

/-- Whether an expiry at tick `e` may be taken: its tick has come, before or after that tick's sample (02 R17). -/
def State.due (s : State) (e : Tick) : Bool := reached s.trg.tick e

/-- Whether a timer that may be stopped is due. -/
def State.dueOpt (s : State) : Option Tick → Bool
  | none => false
  | some e => s.due e

/-- Expiry of a timer of `d` ticks started now (02 R17). -/
def State.after (s : State) (d : Tick) : Tick := s.lastTick + d

/-- The tick of the instant, from which a grant and a frame sent count: that of the next sample where an event timed at it
has been taken, and otherwise that of the last sample (02 R17, 04 R74, log 35). -/
def State.instant (s : State) : Tick := if s.trg.begun then s.trg.tick else s.lastTick

/-- An event timed at tick `e` is taken. -/
def State.arrive (e : Tick) (s : State) : State :=
  s.withTrg { s.trg with begun := s.trg.begun || decide (e = s.trg.tick) }

/-- The working setup. -/
def State.w (s : State) : Setup := s.setup.working

/-! ## Tables -/

/-- A correction entry nothing has loaded (01 R2). -/
def corrDefault (_ : Nat) : CorrEntry := ⟨512, 4096, false⟩

/-- Place of the entry of a channel and range. -/
def corrKey (c : Ch) (range : Nat) : Nat := (c.num - 1) * 12 + range

/-- A correction entry. -/
def SamplePath.entry (p : SamplePath) (c : Ch) (range : Nat) : CorrEntry := p.corr.get corrDefault (corrKey c range)

/-- The active correction entry of a channel (01 R2). -/
def State.activeEntry (s : State) (c : Ch) : CorrEntry := s.sp.entry c (s.w.range c)

/-- Words per group and channel, w (03 R47): 1 in SAMPLE and HIRES, 2 in PEAK. -/
def AcqMode.perGroup : AcqMode → Nat
  | .peak => 2
  | _ => 1

/-- A buffer record at reset or rebuild (03 R67, R64). -/
def bufDefault (_ : Nat) : Buffer := ⟨.free, false, false, none⟩

/-- Buffer record b. -/
def Pool.buf (p : Pool) (b : Nat) : Buffer := p.bufs.get bufDefault b

/-- Replace buffer record b. -/
def Pool.setBuf (p : Pool) (b : Nat) (x : Buffer) : Pool := { p with bufs := p.bufs.set bufDefault b x }

/-- Words of a buffer, C (04 R68). -/
def Pool.capacity (p : Pool) : Nat := Config.memoryWords / p.count

/-- Memory word at which the ring of a channel's segment begins (04 R69): `k` is the channel's place in the channel list. -/
def Pool.ringBase (p : Pool) (b k segs seg len : Nat) : Nat := b * p.capacity + (k * segs + seg) * len

/-- What an unlisted word of the sample memory reads as (log 9). -/
def memDefault (_ : Nat) : SampleWord := 0

/-- A word as a read delivers it: its code and CLIP mark, bits 14..10 cleared (04 R70). -/
def delivered (w : SampleWord) : SampleWord := w &&& 0x83FF#16

/-- The corrected code of a sample word (12 R218). -/
def wordCode (w : SampleWord) : Int := (w.setWidth 10).toInt

/-- The sample word of a code and CLIP mark (12 R218). -/
def sampleWord (code : Int) (clip : Bool) : SampleWord :=
  (BitVec.ofInt 10 code).setWidth 16 ||| (if clip then 0x8000#16 else 0#16)

/-- The memory words of a burst, in the order delivered (04 R74). -/
def Burst.addrs (b : Burst) : List Nat := (List.range b.count).map (fun i => b.base + (b.pos + i) % b.len)

/-- The words a read grant delivers (04 R70, R74). -/
def State.burstWords (s : State) (b : Burst) : List SampleWord :=
  b.addrs.map (fun a => delivered (s.mem.get memDefault a))

/-- Write the words of a write grant, in FIFO order (04 R74). -/
def writeEntries (m : Table SampleWord) (es : List FifoEntry) : Table SampleWord :=
  m.setAll memDefault (es.map (fun e => (e.addr, e.word)))

/-- A plane cell nothing has lit (05 R98). -/
def cellDefault (_ : Nat) : Nat := 0

/-- Place of cell (x, r) of a plane. -/
def cellKey (x r : Nat) : Nat := x * 400 + r

/-- Intensity of cell (x, r) of a channel's plane (05 R78). -/
def State.cell (s : State) (c : Ch) (x r : Nat) : Nat := (s.planes.get c).get cellDefault (cellKey x r)

/-- Clear planes to 0 (05 R78, R94). -/
def clearPlanes (p : PerCh (Table Nat)) (cs : List Ch) : PerCh (Table Nat) :=
  PerCh.of (fun c => if c ∈ cs then Table.empty else p.get c)

/-- A colour table entry after power-on reset (06 R105, R106). -/
def black (_ : Nat) : Colour := ⟨0, 0, 0⟩

/-- CLUT entry of a channel and band (06 R105). -/
def Compositor.clutColour (c : Compositor) (ch : Ch) (band : Nat) : Colour :=
  c.clut.get black ((ch.num - 1) * 16 + band)

/-- Fixed palette entry (06 R106). -/
def Compositor.paletteColour (c : Compositor) (i : Nat) : Colour := c.palette.get black i

/-- A glyph row, an overlay code, or a flash-free byte place after power-on reset. -/
def zeroByte (_ : Nat) : Byte := 0

/-- The code of overlay cell (R, C) (06 R111). -/
def Compositor.codeAt (c : Compositor) (row col : Nat) : Nat := (c.text.get zeroByte (100 * row + col)).toNat

/-- An erased byte of the flash (09 R164). -/
def erasedByte (_ : Nat) : Byte := 0xFF

/-- A key after reset (07 R122). -/
def keyDefault (_ : Nat) : Key := ⟨false, 0, false⟩

/-- An encoder after reset (07 R126). -/
def encDefault (_ : Nat) : Encoder := ⟨none, 0, 0⟩

/-- A panel action entry after power-on reset (07 R129). -/
def actionDefault (_ : Nat) : ActionEntry := ⟨.off, .none, none, none, none, false, false, 0, 2⟩

/-- An LED entry after power-on reset (07 R141). -/
def ledDefault (_ : Nat) : LedEntry := ⟨.direct, .off, .low⟩

/-- A slot nothing has classified (log 22). -/
def slotDefault (_ : Nat) : Slot := ⟨.empty, []⟩

/-- Key k. -/
def Panel.key (p : Panel) (k : Nat) : Key := p.keys.get keyDefault k

/-- Encoder e. -/
def Panel.enc (p : Panel) (e : Nat) : Encoder := p.encs.get encDefault e

/-- The action entry of a control code. -/
def Panel.action (p : Panel) (code : Nat) : ActionEntry := p.actions.get actionDefault code

/-- LED entry. -/
def Panel.led (p : Panel) (i : Nat) : LedEntry := p.leds.get ledDefault i

/-- DEFAULT followed by nine spaces, slot 0's name (09 R165). -/
def defaultName : List Byte :=
  [0x44, 0x45, 0x46, 0x41, 0x55, 0x4C, 0x54, 0x20, 0x20, 0x20, 0x20, 0x20, 0x20, 0x20, 0x20, 0x20]

/-- Slot n of the slot state table; slot 0 is the default setup in ROM (09 R165). -/
def Store.slot (t : Store) (n : Nat) : Slot :=
  if n = 0 then ⟨.valid, defaultName⟩ else t.slots.get slotDefault n

/-- Replace a slot's state and name. -/
def Store.setSlot (t : Store) (n : Nat) (x : Slot) : Store := { t with slots := t.slots.set slotDefault n x }

/-! ## The flash (09 R164, 12 R219) -/

/-- Flash address of a byte of a sector. The sector size is not stated; no more than 836 bytes of a sector are used
(log 8). -/
def flashAddr (sector offset : Nat) : Nat := sector * 1024 + offset

/-- `n` bytes from the start of a sector. -/
def readSector (f : Table Byte) (sector n : Nat) : List Byte := f.getRun erasedByte (flashAddr sector 0) n

/-- Erase a sector (09 R164). -/
def eraseSector (f : Table Byte) (sector : Nat) : Table Byte :=
  ⟨f.cells.filter (fun c => decide (c.1 / 1024 ≠ sector))⟩

/-- Program bytes from the start of a sector. -/
def programSector (f : Table Byte) (sector : Nat) (bs : List Byte) : Table Byte :=
  f.setRun erasedByte (flashAddr sector 0) bs

/-- The flash as the outside world leaves it (log 8). -/
def State.upsetFlash (s : State) (u : Upset) : State := s.withFlash (s.flash.setAll erasedByte u)

/-- The bytes of a frame from TYPE to the check (12 R215). -/
def frameBytes (type tag : Byte) (payload : List Byte) : List Byte :=
  let body := [type, tag] ++ beBytes 2 payload.length ++ payload
  body ++ beBytes 2 (crc16 body).toNat

/-! ## The response queue (10 R188, R189) -/

/-- Add a response at the end of the response queue. -/
def Link.respond (l : Link) (r : Resp) : Link := { l with resp := l.resp ++ [r] }

/-- The answer to a command: it fills the place the command reserved (10 R189). Result data follow only OK and CLAMPED
(12 R216). -/
def State.answer (s : State) (type tag : Byte) (code : ResultCode) (data : List Byte) : State :=
  s.withLink (s.link.respond
    ⟨type, tag, code, if code = .ok ∨ code = .clamped then data else []⟩)

/-! ## The report queue (10 R193 to R196) -/

/-- A report enters, or is discarded by a full queue (10 R196). -/
def Link.enter (l : Link) (b : ReportBody) : Link :=
  if l.reports.length < Config.reportDepth then
    { l with reports := l.reports ++ [⟨l.lost, b⟩], lost := false }
  else { l with lost := true }

/-- Rewrite the first waiting report that a merge applies to; none where no report waits for it (10 R194). -/
def mergeReports (f : ReportBody → Option ReportBody) : List Report → Option (List Report)
  | [] => none
  | r :: rest =>
    match f r.body with
    | some b => some ({ r with body := b } :: rest)
    | none => (mergeReports f rest).map (r :: ·)

/-- What a new value makes of a waiting FIELD report for the same id (10 R194). -/
def fieldMerge (id : Nat) (v : Int) : ReportBody → Option ReportBody
  | .field i _ => if i = id then some (.field id v) else none
  | _ => none

/-- What a new RUNSTATE report makes of a waiting one (10 R194). -/
def runstateMerge (new : ReportBody) : ReportBody → Option ReportBody
  | .runstate _ _ _ _ => some new
  | _ => none

/-- A number held at 255. -/
def sat255 (n : Nat) : Nat := min n 255

/-- What a completion makes of a waiting ACQ report (03 R65). -/
def acqMerge (buffer : Nat) (seq : BitVec 32) (skip : Nat) (gapped clipped : Bool) : ReportBody → Option ReportBody
  | .acq _ _ n k g c => some (.acq buffer seq (sat255 (n + 1)) (sat255 (k + skip)) (g || gapped) (c || clipped))
  | _ => none

/-- A panel change of a field reports its new value, or updates the report that waits (07 R135). -/
def Link.offerField (l : Link) (id : Nat) (v : Int) : Link :=
  match mergeReports (fieldMerge id v) l.reports with
  | some rs => { l with reports := rs }
  | none => l.enter (.field id v)

/-- A host change of a field updates the FIELD report that waits for it, and queues none (08 R158). -/
def Link.updateField (l : Link) (id : Nat) (v : Int) : Link :=
  match mergeReports (fieldMerge id v) l.reports with
  | some rs => { l with reports := rs }
  | none => l

/-- A RUNSTATE report enters or replaces the one that waits (03 R66). -/
def Link.offerRunstate (l : Link) (b : ReportBody) : Link :=
  match mergeReports (runstateMerge b) l.reports with
  | some rs => { l with reports := rs }
  | none => l.enter b

/-- Whether a report is a FIELD report. -/
def ReportBody.isField : ReportBody → Bool
  | .field _ _ => true
  | _ => false

/-- Remove every waiting FIELD report (10 R195). -/
def Link.dropFields (l : Link) : Link := { l with reports := l.reports.filter (fun r => !r.body.isField) }

/-- Queue a SETUP report, removing every waiting FIELD report first (10 R195). -/
def Link.offerSetup (l : Link) (kind : SetupKind) (slot : Option Nat) : Link := l.dropFields.enter (.setup kind slot)

/-- Queue a report of a kind that is not coalesced. -/
def State.report (s : State) (b : ReportBody) : State := s.withLink (s.link.enter b)

/-- Queue the RUNSTATE report of the state as it stands (03 R66). -/
def State.reportRun (s : State) (cause : RunCause) (code : ResultCode) : State :=
  s.withLink (s.link.offerRunstate (.runstate s.acq.run s.acq.state cause code))

end Sys2Proof.Machine
end

