-- ==== Sys2Proof/Machine/Pool.lean ====
section
/-!
DEFINITION. The Buffer Pool's shared operations (03 R53 to R58, R63, R64) and the ending of a readout stream that a
recycle or a rebuild causes (11 R209, R210).
-/

namespace Sys2Proof.Machine

/-- The ending of the stream in progress with a last frame of status CANCELLED or GONE (11 R209, R210): the request is
withdrawn and a grant of its own no longer wanted, the stream's words and its ready frame are discarded, and a last frame
without words is formed. A last frame of an earlier stream that has not begun transmission keeps its place and its words
(11 R208, log 20). -/
def State.endStream (status : DataStatus) (s : State) : State :=
  match s.readout.stream with
  | none => s
  | some st =>
    let kept := s.readout.frames.filter (fun f => decide (f.status ≠ .more))
    let grant := match s.smc.grant with
      | some ⟨e, .readout b _⟩ => some ⟨e, .readout b false⟩
      | g => g
    (s.withSmc { s.smc with grant := grant }).withReadout
      { stream := none, words := s.readout.words.take (kept.map (fun f => f.words.length)).sum,
        frames := kept ++ [⟨st.tag, st.sent, 0, status, st.collided, []⟩] }

/-- Whether the stream in progress reads a buffer. -/
def State.streams (s : State) (b : Nat) : Bool :=
  match s.readout.stream with
  | none => false
  | some st => decide (st.buf = b)

/-- The first buffer of the completion list in a state and unpinned (03 R58). -/
def Pool.firstUnpinned (p : Pool) (st : BufState) : Option Nat :=
  p.completion.find? (fun b => decide ((p.buf b).state = st) && !(p.buf b).pinned)

/-- The buffer selection takes, in the order of 03 R58: the lowest FREE, the oldest unpinned SHOWN, the oldest unpinned
NEW. -/
def Pool.choose (p : Pool) : Option Nat :=
  match (List.range p.count).find? (fun b => decide ((p.buf b).state = .free)) with
  | some b => some b
  | none =>
    match p.firstUnpinned .shown with
    | some b => some b
    | none => p.firstUnpinned .new

/-- A selected buffer becomes FILLING (03 R58): a recycled one ends the stream that reads it, leaves the list and loses
its descriptor and stale flag, and a NEW one raises the skip accumulator. -/
def State.claim (b : Nat) (s : State) : State :=
  let old := (s.pool.buf b).state
  let s := if old ≠ .free && s.streams b then s.endStream .gone else s
  (s.withPool { s.pool.setBuf b ⟨.filling, false, false, none⟩ with completion := s.pool.completion.erase b }).withAcq
    { s.acq with skip := if old = .new then sat255 (s.acq.skip + 1) else s.acq.skip }

/-- A NEW buffer marked stale: SHOWN, with its stale flag and its descriptor's set (03 R63). -/
def Buffer.markStale (x : Buffer) : Buffer :=
  if x.state = .new then
    { x with state := .shown, stale := true, desc := x.desc.map (fun d => { d with stale := true }) }
  else x

/-- Stale marking of every NEW buffer (03 R63); the completion list, the pins and the descriptors stay. -/
def State.markStale (s : State) : State :=
  s.withPool { s.pool with
    bufs := s.pool.bufs.setAll bufDefault
      ((List.range s.pool.count).map (fun b => (b, (s.pool.buf b).markStale))) }

/-- The rebuild of the pool at a change of ACQ.BUFFERS (03 R64): a stream ends with GONE, and B buffers are FREE. -/
def State.rebuildPool (s : State) : State :=
  (s.endStream .gone).withPool { count := s.w.buffers, bufs := Table.empty, completion := [] }

/-- Move a buffer from one state to SHOWN, keeping its place in the list, its pin and its descriptor (05 R84, R96). -/
def Pool.toShown (p : Pool) (b : Nat) : Pool := p.setBuf b { p.buf b with state := .shown }

/-- Number of pinned buffers. -/
def Pool.pinnedCount (p : Pool) : Nat := ((List.range p.count).filter (fun b => (p.buf b).pinned)).length

end Sys2Proof.Machine
end

