-- ==== Sys2Proof/Machine/Raster.lean ====
section
/-!
DEFINITION. The Rasterizer and the persistence planes (chapter 5).
-/

namespace Sys2Proof.Machine

/-! ## From value to cell (05 R85) -/

/-- r0 = 199 - floor(d / 2) with d = v + p (05 R85). -/
def rawRow (v p : Int) : Int := 199 - (v + p) / 2

/-- The plane row of a value v at position p (05 R85). -/
def planeRow (v p : Int) : Nat := (clampInt 0 399 (rawRow v p)).toNat

/-- Whether the row had to be held (06 R108). -/
def rowHeld (v p : Int) : Bool := decide (rawRow v p < 0 ∨ 399 < rawRow v p)

/-- Add a row to a set of rows kept in rising order, each once (05 R87). -/
def insertRow : Nat → List Nat → List Nat
  | r, [] => [r]
  | r, x :: rest => if r < x then r :: x :: rest else if r = x then x :: rest else x :: insertRow r rest

/-- The lit set under DSP.STYLE = VECTORS: every row from the least to the greatest, extended to the previous row
(05 R89). -/
def vectorRows (rows : List Nat) (prev : Option Nat) : List Nat :=
  match rows.head?, rows.getLast? with
  | some lo, some hi =>
    let lo' := match prev with
      | some p => min lo p
      | none => lo
    let hi' := match prev with
      | some p => max hi p
      | none => hi
    List.range' lo' (hi' - lo' + 1)
  | _, _ => []

/-- The lit set of a completed column (05 R88, R89). -/
def litRows (vectors : Bool) (rows : List Nat) (prev : Option Nat) : List Nat :=
  if vectors then vectorRows rows prev else rows

/-- A column's increment: every cell of the lit set gains w and is held at 255 (05 R90). -/
def lightColumn (t : Table Nat) (x w : Nat) (rows : List Nat) : Table Nat :=
  t.setAll cellDefault (rows.map (fun r => (cellKey x r, min 255 (t.get cellDefault (cellKey x r) + w))))

/-- What one frame tick leaves of a cell: old - ceil(old x k / 256) (05 R92). -/
def decayed (k old : Nat) : Nat := old - (old * k + 255) / 256

/-- The decay of all four planes at a frame tick (05 R92). -/
def decayPlanes (k : Nat) (p : PerCh (Table Nat)) : PerCh (Table Nat) :=
  PerCh.of (fun c => (p.get c).mapNat (decayed k))

/-! ## Drawing -/

/-- The ring origin of a segment of a descriptor (03 R56). -/
def Descriptor.origin (d : Descriptor) (seg : Nat) : Nat :=
  match d.segs[seg]? with
  | some e => e.origin
  | none => 0

/-- The pre-draw clear of a channel's plane in persistence OFF (05 R91). -/
def State.preDrawClear (c : Ch) (s : State) : State :=
  if s.w.persist = .off then s.withPlanes (clearPlanes s.planes [c]) else s

/-- The draw position and the rest of what the Rasterizer holds when it moves to a segment (05 R80, R82, R87). -/
def Drawing.atSegment (buf place seg origin : Nat) : Drawing :=
  { buf := buf, place := place, seg := seg, col := 0, nextPos := origin, delivered := 0, inCol := 0, rows := [],
    prev := none }

/-- The first NEW buffer of the completion list (05 R80). -/
def Pool.firstNew (p : Pool) : Option Nat := p.completion.find? (fun b => decide ((p.buf b).state = .new))

/-- The IDLE Rasterizer takes the first NEW buffer, if there is one (05 R80). -/
def State.takeBuffer (s : State) : State :=
  match s.ras.drawing, s.pool.firstNew with
  | none, some b =>
    match (s.pool.buf b).desc with
    | none => s
    | some d =>
      let s := (s.withPool (s.pool.setBuf b { s.pool.buf b with state := .drawing })).withRas
        ⟨some (Drawing.atSegment b 0 0 (d.origin 0))⟩
      match d.values.chans.head? with
      | some (c, _) => s.preDrawClear c
      | none => s
  | _, _ => s

/-- The end of drawing: the buffer becomes SHOWN and the Rasterizer IDLE (05 R84). -/
def State.endDrawing (b : Nat) (s : State) : State := (s.withPool (s.pool.toShown b)).withRas ⟨none⟩

/-- The move after column 699 of a segment: the next segment of the channel, segment 0 of the next listed channel, or
the end of drawing (05 R82, R84, R91). -/
def State.nextSegment (d : Drawing) (ds : Descriptor) (s : State) : State :=
  if d.seg + 1 < ds.values.segs then
    s.withRas ⟨some (Drawing.atSegment d.buf d.place (d.seg + 1) (ds.origin (d.seg + 1)))⟩
  else
    match ds.values.chans[d.place + 1]? with
    | some (c, _) => (s.withRas ⟨some (Drawing.atSegment d.buf (d.place + 1) 0 (ds.origin 0))⟩).preDrawClear c
    | none => s.endDrawing d.buf

/-- A delivered word is taken into the current column, which is completed when the word is its last value
(05 R86, R87, R90). -/
def State.drawWord (word : SampleWord) (s : State) : State :=
  match s.ras.drawing with
  | none => s
  | some d =>
    match (s.pool.buf d.buf).desc with
    | none => s
    | some ds =>
      match ds.values.chans[d.place]? with
      | none => s
      | some (c, _) =>
        let row := planeRow (wordCode word) (s.w.pos c)
        let rows := insertRow row d.rows
        if d.inCol + 1 < ds.values.stored / 700 then
          s.withRas ⟨some { d with inCol := d.inCol + 1, rows := rows }⟩
        else
          let plane := lightColumn (s.planes.get c) d.col (s.w.weight c) (litRows s.w.vectors rows d.prev)
          let s := s.withPlanes (s.planes.set c plane)
          if d.col + 1 < 700 then
            s.withRas ⟨some { d with col := d.col + 1, inCol := 0, rows := [], prev := some row }⟩
          else s.nextSegment d ds

/-- Delivered words are taken in delivery order (05 R87). DESIGN CHOICE (log 42): each column's increment is an event of its
own, and the model completes the columns of one delivery in one row, so that no other event falls between two of them. -/
def State.drawWords : List SampleWord → State → State
  | [], s => s
  | word :: rest, s => State.drawWords rest (s.drawWord word)

/-- The request the Rasterizer holds: the next min(64, words left) ring positions of the current segment (05 R83). -/
def State.drawRequest (s : State) : Option Burst :=
  match s.ras.drawing with
  | none => none
  | some d =>
    match (s.pool.buf d.buf).desc with
    | none => none
    | some ds =>
      let left := ds.values.stored - d.delivered
      if left = 0 then none
      else some ⟨s.pool.ringBase d.buf d.place ds.values.segs d.seg ds.values.stored, ds.values.stored, d.nextPos,
        min Config.burstWords left⟩

/-- The delivery of a burst the Rasterizer wanted: its position moves on and its words are drawn (05 R83, R87). -/
def State.deliverDraw (b : Burst) (s : State) : State :=
  match s.ras.drawing with
  | none => s
  | some d =>
    (s.withRas ⟨some { d with nextPos := (d.nextPos + b.count) % b.len, delivered := d.delivered + b.count }⟩).drawWords
      (s.burstWords b)

/-- The abandonment of drawing at an ACQ-class announcement (05 R96): the request is withdrawn, a grant of its own no
longer wanted, and the buffer becomes SHOWN without being marked stale. -/
def State.abandonDrawing (s : State) : State :=
  match s.ras.drawing with
  | none => s
  | some d =>
    let grant := match s.smc.grant with
      | some ⟨e, .draw b _⟩ => some ⟨e, .draw b false⟩
      | g => g
    (s.withSmc { s.smc with grant := grant }).endDrawing d.buf

/-- RASTERIZER_TAKE (05 R80). -/
def execRasterizerTake (s : State) : Host.Outcome State Fault Refusal := .next s.takeBuffer

end Sys2Proof.Machine
end

