-- ==== Sys2Proof/Machine/Flags.lean ====
section
/-!
DEFINITION. What is computed from the state wherever it is read: the blink phases, the LED and BEEP lines, the places of
the response queue, and whether a deferred reset is due.
-/

namespace Sys2Proof.Machine

/-- SLOW is ON while (frame counter div 32) is even (06 R101). -/
def slowPhase (frame : BitVec 32) : Bool := decide (frame.toNat / 32 % 2 = 0)

/-- FAST is ON while (frame counter div 8) is even (06 R101). -/
def fastPhase (frame : BitVec 32) : Bool := decide (frame.toNat / 8 % 2 = 0)

/-- The indicated state of an LED (07 R142). -/
def State.ledIndicated (s : State) (i : Nat) : LedState :=
  match (s.panel.led i).source with
  | .direct => (s.panel.led i).direct
  | .run => if s.acq.run = .run then .on else .off
  | .trigWait => if s.acq.state = .ready then .slow else .off
  | .single => if s.acq.run = .single then .on else .off
  | .chan c => if s.w.enabled c then .on else .off
  | .remote =>
    match s.panel.access with
    | .remote => .on
    | .lockout => .fast
    | .local => .off
  | .storeBusy => if s.store.activity = .writing then .fast else .off

/-- Whether an LED's driver line is lit (07 R142). -/
def State.ledLit (s : State) (i : Nat) : Bool :=
  match s.ledIndicated i with
  | .on => true
  | .slow => s.comp.slow
  | .fast => s.comp.fast
  | .off => false

/-- The current an LED is driven at: LOW in the dim state (07 R140, R142). -/
def State.ledCurrent (s : State) (i : Nat) : LedCurrent :=
  if s.comp.dim then .low else (s.panel.led i).current

/-- Whether BEEP is high (07 R143, R144). -/
def State.beep (s : State) : Bool := s.panel.click.isSome || s.panel.alarmEnd.isSome

/-- Whether TRIG OUT is high at the instant: a pulse has risen and has not ended (02 R36). -/
def State.trigOutHigh (s : State) : Bool := s.trg.trigOut.any (fun p => reached s.instant p.rises)

/-- Whole symbols of 8 ticks from a tick to the instant, modulo the 2^45 that a lap of the tick counter holds (02 R16,
10 R183). -/
def State.symbolsSince (s : State) (from_ : Tick) : Nat := (s.instant - from_).toNat / 8

/-- The running disparity of the outgoing lane at a tick up to which it sends IDLE: however many it has sent, as a lap of the
tick counter holds an even number (10 R183). -/
def Link.idleAt (l : Link) (n : Tick) : Bool := idleDisparity l.txDisparity ((n - l.idleFrom).toNat / 8)

/-- The running disparity of the idle outgoing lane at the instant, after the whole IDLE symbols it has sent (10 R183). -/
def State.sentDisparity (s : State) : Bool := s.link.idleAt s.instant

/-- The tick from which the idle outgoing lane can carry another symbol: it carries one whole symbol every 8 ticks (10 R183), so
that this is the instant's tick or the end of the IDLE in progress. -/
def State.symbolStart (s : State) : Tick := s.instant + ticks ((s.link.idleFrom - s.instant).toNat % 8)

/-- The tick at which a frame's SOF begins. -/
def Tx.begins (t : Tx) : Tick := t.ends - ticks (8 * t.symbols.length)

/-- The word on the outgoing lane at the instant (10 R183): of the frame in transmission once its SOF has begun, or IDLE. -/
def State.laneWord (s : State) : LaneWord :=
  match s.link.lane with
  | some t =>
    if reached s.instant t.begins then
      let k := s.symbolsSince t.begins
      (symbolWords t.disparity t.symbols).getD k
        (symbolWord (idleDisparity (disparityOver t.disparity t.symbols) (k - t.symbols.length)) .idle)
    else symbolWord s.sentDisparity .idle
  | none => symbolWord s.sentDisparity .idle

/-- Places of the response queue reserved: one for the command the decoder waits on, one for each deferred RESET
(10 R189). -/
def State.reservedPlaces (s : State) : Nat := (if s.link.waiting.isSome then 1 else 0) + s.store.deferred.length

/-- Whether the response queue has room for one more response or reservation (10 R189). -/
def State.responseRoom (s : State) : Bool := decide (s.link.resp.length + s.reservedPlaces < Config.responseDepth)

/-- Whether a deferred RESET is due: what it waited for has ended (09 R177). Until it is taken, at that same instant, the
decoder and the panel take nothing more (log 18). -/
def State.resetDue (s : State) : Bool := !s.store.deferred.isEmpty && decide (s.store.activity = .idle)

/-- Whether the decoder takes a frame: it waits on no command, and the response queue has room (10 R187). -/
def State.decoderFree (s : State) : Bool := s.link.waiting.isNone && s.responseRoom && !s.resetDue

/-- Whether power-on recall is in progress, so that its owners hold setup changes and RUN, SINGLE and STOP
(08 R163, 03 R67). -/
def State.recalling (s : State) : Bool := decide (s.store.activity = .starting)

/-- Whether the Setup Store holds the requests that arrive (09 R167). -/
def State.storeHolds (s : State) : Bool := decide (s.store.activity = .starting ∨ s.store.activity = .reading)

end Sys2Proof.Machine
end

