-- ==== Sys2Proof/Machine/Trigger.lean ====
section
/-!
DEFINITION. The Trigger Sequencer (chapter 2): comparators, conditions, stage entry, the fire, and the four rows whose
event is an expiry of one of its timers. What a sample does is put together in Machine/Sample.lean.
-/

namespace Sys2Proof.Machine

/-- What an optional tick holds after a duration of 0 means none: the expiry of a stage timeout of T ticks (02 R29). -/
def timeoutFrom (entry : Tick) (t : Nat) : Option Tick := if t = 0 then none else some (entry + ticks t)

/-- The measurement state at stage entry (02 R23). -/
def Measure.fresh (entry : Tick) : Measure := ⟨none, 0, entry⟩

/-- A comparator's output at initialisation (02 R21). -/
def compInit (st : StageRec) (codes : PerCh Int) (ext : Bool) : Bool :=
  match st.src with
  | .chan c => decide (st.level ≤ codes.get c)
  | .ext => ext

/-- A comparator's output after a sample (02 R19, R20). -/
def compNext (st : StageRec) (codes : PerCh Int) (ext old : Bool) : Bool :=
  match st.src with
  | .chan c => if old then !decide (codes.get c < st.level - st.hyst) else decide (st.level ≤ codes.get c)
  | .ext => ext

/-- Comparator outputs of the active stages at initialisation. -/
def compsInit (w : Setup) (codes : PerCh Int) (ext : Bool) : List Bool :=
  (List.range w.stages).map (fun i => compInit (w.stage i) codes ext)

/-- Comparator outputs of the active stages after a sample. -/
def compsNext (w : Setup) (codes : PerCh Int) (ext : Bool) (old : List Bool) : List Bool :=
  (List.range w.stages).map (fun i => compNext (w.stage i) codes ext (old.getD i false))

/-- The sequencer not enabled: stage 0, nothing measured, no stage timeout (02 R22). -/
def Trigger.disabled (t : Trigger) : Trigger :=
  { t with enabled := false, stage := 0, comps := [], meas := none, timeout := none }

/-- Enable the sequencer, or enable it afresh: stage 0 entered, comparators initialised from the most recent sample
(02 R21, R22, R37). -/
def State.enableSequencer (s : State) : State :=
  s.withTrg { s.trg with enabled := true, stage := 0, comps := compsInit s.w s.sp.codes s.trg.ext,
                         meas := some (Measure.fresh s.lastTick), timeout := none }

/-- Entry to READY: the auto timer starts in AUTO, and the sequencer is enabled if no holdoff runs (02 R31, R38). -/
def State.enterReady (s : State) : State :=
  let s := (s.withAcq { s.acq with state := .ready }).withTrg
    { s.trg with autoStart := if s.w.auto then some s.lastTick else none }
  if s.trg.holdoff = none then s.enableSequencer else s

/-- What STOP and an ACQ-class change do to the sequencer; a running holdoff runs on, and a sample that falls together with
the change is not examined (02 R38). -/
def State.stopSequencer (s : State) : State :=
  s.withTrg { s.trg.disabled with
    halted := true, autoStart := none, autoPending := false, forcePending := false }

/-- A TRIG-class announcement (02 R37). -/
def State.announceTrig (s : State) : State := if s.trg.enabled then s.enableSequencer else s

/-- What a change of TRG.MODE does to the auto timer (02 R32). -/
def State.changeTrigMode (old : Setup) (s : State) : State :=
  if old.auto = s.w.auto then s
  else if old.auto then s.withTrg { s.trg with autoStart := none, autoPending := false }
  else if s.acq.state = .ready then s.withTrg { s.trg with autoStart := some s.lastTick }
  else s

/-- A change of TRG.AUTOTIME reaches a running auto timer at once: the expiry is taken at the change if the new duration
has already elapsed (02 R32). -/
def State.changeAutoTime (old : Setup) (s : State) : State :=
  match s.trg.autoStart with
  | none => s
  | some start =>
    if old.autoTime ≠ s.w.autoTime ∧ s.w.autoTime.toNat ≤ (s.lastTick - start).toNat then
      s.withTrg { s.trg with autoStart := none, autoPending := true }
    else s

/-- FORCE: force-pending is set in READY and ARMING, and the request is ignored otherwise (02 R33). -/
def State.forceAccepted (s : State) : Bool := decide (s.acq.state = .ready ∨ s.acq.state = .arming)

def State.takeForce (s : State) : State :=
  if s.forceAccepted then s.withTrg { s.trg with forcePending := true } else s

/-! ## Conditions (02 R24 to R27) -/

/-- Whether a sample that moved the comparator from `old` to `new` carries the leading edge of a stage's pulse, its
counted edge, or the edge into its held state: rising for POS, falling for NEG. -/
def leadingEdge (pos old new : Bool) : Bool := if pos then !old && new else old && !new

/-- The opposite edge: the trailing edge of a pulse. -/
def trailingEdge (pos old new : Bool) : Bool := leadingEdge (!pos) old new

/-- Whether a width matches (02 R25). -/
def widthMatches (c : Cond) (limit width : Nat) : Bool :=
  match c with
  | .widthLt => decide (width < limit)
  | _ => decide (limit < width)

/-- The evaluation of a sample of tick `t` by the current stage: its measurement state afterwards and whether the sample
matches (02 R24 to R27). -/
def evaluate (st : StageRec) (m : Measure) (old new : Bool) (t : Tick) : Measure × Bool :=
  match st.cond with
  | .rise => (m, !old && new)
  | .fall => (m, old && !new)
  | .either => (m, old != new)
  | .count =>
    if leadingEdge st.pos old new then
      if m.edges + 1 ≥ st.limit then (m, true) else ({ m with edges := m.edges + 1 }, false)
    else (m, false)
  | .stay =>
    let m := if leadingEdge st.pos old new then { m with anchor := t } else m
    (m, (new == st.pos) && decide (t = m.anchor + ticks st.limit))
  | c =>
    if leadingEdge st.pos old new then ({ m with capture := some t }, false)
    else if trailingEdge st.pos old new then
      match m.capture with
      | none => (m, false)
      | some lead => ({ m with capture := none }, widthMatches c st.limit (t - lead).toNat)
    else (m, false)

/-! ## The fire (02 R34 to R36) -/

/-- Ring origin of a segment whose trigger group has ordinal `gt` (03 R49): (pt - pre x w) mod L, taken non-negative, with
pt = (gt x w) mod L. -/
def ringOrigin (c : Captured) (gt : Nat) : Nat :=
  ((((gt * c.mode.perGroup) % c.stored : Nat) - (c.pre * c.mode.perGroup : Nat) : Int) % (c.stored : Int)).toNat

/-- The pulse of a fire on the sample of tick `t`: TRIG OUT is high from the next tick for 8 ticks, and where it is still high
it stays so (02 R36, log 14). -/
def State.firePulse (t : Tick) (s : State) : Pulse := ⟨if s.trigOutHigh then t else t + 1, t + 9⟩

/-- A fire on the sample of tick `t`: pending flags cleared, sequencer disabled, holdoff started, TRIG OUT's pulse begun, and
the fire record placed with the trigger group and the ring origin (02 R34 to R36, 03 R49). -/
def State.fire (kind : FireKind) (t : Tick) (s : State) : State :=
  let origin := match s.acq.captured with
    | some c => ringOrigin c s.acq.ordinal
    | none => 0
  let gapped := match s.acq.seg with
    | some r => r.gapped
    | none => false
  (s.withTrg { s.trg.disabled with autoStart := none, autoPending := false, forcePending := false,
                                   holdoff := some (t + s.w.holdoff), trigOut := some (s.firePulse t) }).withAcq
    { s.acq with state := .triggered,
                 seg := some ⟨gapped, some ⟨t, s.sp.groupPos, kind, s.acq.ordinal, origin⟩⟩ }

/-- Stage `n` entered by a NEXT match of the sample of tick `t` (02 R23, R28). -/
def State.enterStage (n : Nat) (t : Tick) (s : State) : State :=
  s.withTrg { s.trg with stage := n, meas := some (Measure.fresh t),
                         timeout := timeoutFrom t (s.w.stage n).timeout }

/-- The comparators of an enabled sequencer are updated at a sample, whether or not it is evaluated (02 R21). -/
def State.updateComparators (s : State) : State :=
  if s.acq.state = .ready ∧ s.trg.enabled then
    s.withTrg { s.trg with comps := compsNext s.w s.sp.codes s.trg.ext s.trg.comps }
  else s

/-- The examination of the sample of tick `t` for a fire (02 R34); the first case that applies decides. -/
def State.examine (t : Tick) (s : State) : State :=
  if s.acq.state ≠ .ready then s
  else if s.trg.forcePending then s.fire .forced t
  else if !s.trg.enabled then s
  else
    let comps := compsNext s.w s.sp.codes s.trg.ext s.trg.comps
    let st := s.w.stage s.trg.stage
    let (m, hit) := evaluate st (s.trg.meas.getD (Measure.fresh t)) (s.trg.comps.getD s.trg.stage false)
      (comps.getD s.trg.stage false) t
    let s := s.withTrg { s.trg with comps := comps, meas := some m }
    if hit && (st.fire || decide (s.w.stages ≤ s.trg.stage + 1)) then s.fire .sequence t
    else if s.trg.autoPending then s.fire .auto t
    else if hit then s.enterStage (s.trg.stage + 1) t
    else s

/-! ## Expiries -/

/-- STAGE_TIMEOUT (02 R29). -/
def execStageTimeout (s : State) : Host.Outcome State Fault Refusal :=
  if s.dueOpt s.trg.timeout then
    .next (s.withTrg { s.trg with stage := 0, meas := some (Measure.fresh s.lastTick), timeout := none })
  else .next s

/-- HOLDOFF_EXPIRY (02 R30). -/
def execHoldoffExpiry (s : State) : Host.Outcome State Fault Refusal :=
  if s.dueOpt s.trg.holdoff then
    let s := s.withTrg { s.trg with holdoff := none }
    .next (if s.acq.state = .ready then s.enableSequencer else s)
  else .next s

/-- AUTO_TIMER_EXPIRY (02 R31): the timer runs in READY alone, and its duration is TRG.AUTOTIME as it stands. -/
def execAutoTimerExpiry (s : State) : Host.Outcome State Fault Refusal :=
  match s.trg.autoStart with
  | none => .next s
  | some start =>
    if s.due (start + s.w.autoTime) && decide (s.acq.state = .ready) then
      .next (s.withTrg { s.trg with autoStart := none, autoPending := true })
    else .next s

/-- TRIG_OUT_END (02 R36). -/
def execTrigOutEnd (s : State) : Host.Outcome State Fault Refusal :=
  if s.dueOpt (s.trg.trigOut.map Pulse.ends) then .next (s.withTrg { s.trg with trigOut := none }) else .next s

end Sys2Proof.Machine
end

