-- ==== Sys2Proof/Machine/Acquire.lean ====
section
/-!
DEFINITION. The Acquisition Controller (chapter 3): start checks, arming, the segment's course, completion, stopping, and
the ACQ-class and DRAW-class announcements.
-/

namespace Sys2Proof.Machine

/-! ## Starting (03 R41, R45, R47) -/

/-- The stored length L of a record: N, or 2N in PEAK (03 R45). -/
def Setup.stored (w : Setup) : Nat := w.length * w.mode.perGroup

/-- The pretrigger size in groups: floor(N x ACQ.PRETRIG / 100), held to N - 1 (03 R45). -/
def Setup.pre (w : Setup) : Nat := min (w.length * w.pretrig / 100) (w.length - 1)

/-- The values captured at arming (03 R45). -/
def Setup.capture (w : Setup) : Captured :=
  { chans := w.enabledChans.map (fun c => (c, w.range c)), mode := w.mode, decim := w.decim, len := w.length,
    stored := w.stored, pre := w.pre, segs := w.segments }

/-- Whether a channel is the SRC of an active stage. -/
def Setup.triggersOn (w : Setup) (c : Ch) : Bool :=
  (List.range w.stages).any (fun i => decide ((w.stage i).src = .chan c))

/-- The start checks: none where they pass, else the code of the first that fails (03 R41). -/
def State.startCheck (s : State) : Option ResultCode :=
  if s.w.enabledChans = [] then some .nochan
  else if Ch.all.any (fun c => (s.w.enabled c || s.w.triggersOn c) && !(s.activeEntry c).loaded) then some .notloaded
  else if s.w.enabledChans.length * s.w.stored * s.w.segments ≤ Config.memoryWords / s.w.buffers then none
  else some .limit

/-- The Sample Path opens grouping for a segment entering ARMING (01 R8, R13). -/
def SamplePath.openGrouping (p : SamplePath) (w : Setup) : SamplePath :=
  { p with grouping := some ⟨w.mode, w.decim, w.enabledChans⟩, acc := PerCh.const none, groupPos := 0, clipCount := 0 }

/-- Filling ends and the group in progress, if any, is discarded (01 R8). -/
def SamplePath.closeGrouping (p : SamplePath) : SamplePath :=
  { p with grouping := none, acc := PerCh.const none, groupPos := 0 }

/-- A segment enters ARMING, and READY at once if pre is 0 (03 R47, R48). -/
def State.enterArming (seg pre : Nat) (s : State) : State :=
  let s := (s.withSp (s.sp.openGrouping s.w)).withAcq
    { s.acq with state := .arming, segIdx := seg, fill := 0, ordinal := 0, seg := some ⟨false, none⟩ }
  if pre = 0 then s.enterReady else s

/-- A record set is armed: a buffer is selected and the set's values captured, or the state becomes WAIT_BUFFER
(03 R45). -/
def State.arm (s : State) : State :=
  match s.pool.choose with
  | none => s.withAcq { s.acq with state := .waitBuffer, cur := none, seg := none, captured := none, table := [] }
  | some b =>
    let s := s.claim b
    (s.withAcq { s.acq with cur := some b, captured := some s.w.capture, table := [], setId := s.acq.setId + 1 }).enterArming
      0 s.w.pre

/-- A start that has passed its checks (03 R42, R43). -/
def State.start (r : RunState) (s : State) : State := (s.withAcq { s.acq with run := r }).arm

/-! ## Stopping (03 R44) -/

/-- The FILLING buffer returns to FREE; its segment table, its segment record and the group in progress are discarded
(03 R44, R60 step 1). -/
def State.abandonFilling (s : State) : State :=
  let s := match s.acq.cur with
    | none => s
    | some b => s.withPool (s.pool.setBuf b (bufDefault b))
  (s.withSp { s.sp.closeGrouping with clipCount := 0 }).withAcq
    { s.acq with cur := none, seg := none, captured := none, table := [] }

/-- The run state and the acquisition state become STOP and STOPPED. -/
def State.setStopped (s : State) : State := s.withAcq { s.acq with run := .stop, state := .stopped }

/-- STOP taken in RUN or SINGLE (03 R44). -/
def State.stopAcquisition (s : State) : State := s.abandonFilling.stopSequencer.setStopped

/-! ## Filling (03 R47 to R49) -/

/-- A group counts as written: the fill count and the entry to READY in ARMING, the end of filling in TRIGGERED
(03 R47 to R49). -/
def State.groupWritten (s : State) : State :=
  let s := s.withAcq { s.acq with ordinal := s.acq.ordinal + 1 }
  match s.acq.captured with
  | none => s
  | some c =>
    match s.acq.state with
    | .arming =>
      let s := s.withAcq { s.acq with fill := s.acq.fill + 1 }
      if c.pre ≤ s.acq.fill then s.enterReady else s
    | .triggered =>
      match s.acq.seg with
      | some ⟨_, some f⟩ => if f.ordinal + (c.len - c.pre) ≤ s.acq.ordinal then s.withSp s.sp.closeGrouping else s
      | _ => s
    | _ => s

/-- A word handed to the writer FIFO is appended, or discarded with the segment marked GAPPED (04 R71, R72). -/
def State.handWord (addr : Nat) (word : SampleWord) (s : State) : State :=
  if s.smc.fifo.length < Config.writerFifoDepth then
    s.withSmc { s.smc with fifo := s.smc.fifo ++ [⟨addr, word, s.acq.setId, s.acq.segIdx⟩] }
  else
    s.withAcq { s.acq with seg := s.acq.seg.map (fun r => { r with gapped := true }) }

/-- Words handed in order, each with its address. -/
def State.handWords : List (Nat × SampleWord) → State → State
  | [], s => s
  | w :: rest, s => State.handWords rest (s.handWord w.1 w.2)

/-! ## Completing (03 R50 to R52, R65) -/

/-- Whether the filling of the segment in progress has ended: it drains (03 R50). -/
def State.draining (s : State) : Bool := decide (s.acq.state = .triggered) && s.sp.grouping.isNone

/-- Whether the writer FIFO holds a word of the segment in progress (04 R75). -/
def State.holdsSegment (s : State) : Bool :=
  s.smc.fifo.any (fun e => decide (e.setId = s.acq.setId ∧ e.seg = s.acq.segIdx))

/-- The segment entry of the segment in progress (03 R50). -/
def State.segmentEntry (s : State) : Option SegEntry :=
  match s.acq.seg with
  | some ⟨g, some f⟩ => some ⟨f.tick, f.sub, f.kind, f.origin, s.sp.clipCount, g⟩
  | _ => none

/-- The ACQ report of a completion enters or updates the one that waits; the skip accumulator becomes 0 unless the report
is discarded (03 R65). -/
def State.offerAcq (buffer : Nat) (seq : BitVec 32) (gapped clipped : Bool) (s : State) : State :=
  match mergeReports (acqMerge buffer seq s.acq.skip gapped clipped) s.link.reports with
  | some rs => (s.withLink { s.link with reports := rs }).withAcq { s.acq with skip := 0 }
  | none =>
    if s.link.reports.length < Config.reportDepth then
      (s.withLink (s.link.enter (.acq buffer seq 1 s.acq.skip gapped clipped))).withAcq { s.acq with skip := 0 }
    else s.withLink (s.link.enter (.acq buffer seq 1 s.acq.skip gapped clipped))

/-- A record set is complete: its buffer is NEW with its descriptor, at the end of the completion list, and the ACQ
report is offered (03 R51). -/
def State.completeSet (b : Nat) (c : Captured) (table : List SegEntry) (s : State) : State :=
  let gapped := table.any (fun e => e.gapped)
  let clipped := table.any (fun e => decide (0 < e.clips))
  let d : Descriptor := ⟨s.acq.nextSeq, c, gapped, clipped, false, table⟩
  let p := s.pool.setBuf b ⟨.new, (s.pool.buf b).pinned, false, some d⟩
  ((s.withPool { p with completion := p.completion ++ [b] }).withAcq
    { s.acq with nextSeq := s.acq.nextSeq + 1, cur := none, seg := none, captured := none, table := [] }).offerAcq
      b s.acq.nextSeq gapped clipped

/-- What follows a completion: the next record set in RUN, the stop with its RUNSTATE report in SINGLE (03 R52). -/
def State.afterSet (s : State) : State :=
  if s.acq.run = .single then s.setStopped.reportRun .singleDone .ok else s.arm

/-- The completion of a drained segment (03 R50 to R52). `drawFirst`: see `Instr.segmentComplete`. -/
def State.completeSegment (drawFirst : Bool) (s : State) : State :=
  match s.acq.cur, s.acq.captured, s.segmentEntry with
  | some b, some c, some e =>
    let table := s.acq.table ++ [e]
    if s.acq.segIdx + 1 < c.segs then
      (s.withAcq { s.acq with table := table }).enterArming (s.acq.segIdx + 1) c.pre
    else
      let s := s.completeSet b c table
      (if drawFirst then s.takeBuffer else s).afterSet
  | _, _, _ => s

/-- SEGMENT_COMPLETE (03 R50, 04 R75). -/
def execSegmentComplete (drawFirst : Bool) (s : State) : Host.Outcome State Fault Refusal :=
  if s.draining && !s.holdsSegment then .next (s.completeSegment drawFirst) else .next s

/-- REEXAMINATION (03 R59): in WAIT_BUFFER a buffer that has come to qualify is selected and the record set armed. -/
def execReexamination (s : State) : Host.Outcome State Fault Refusal :=
  if decide (s.acq.state = .waitBuffer) && s.pool.choose.isSome then .next s.arm else .next s

/-! ## Announcements (03 R60 to R64, 05 R94, R96) -/

/-- Step 6 of 03 R60: the start checks are applied and the set re-armed, or acquisition stops with a RUNSTATE report
(03 R61). -/
def State.rearm (s : State) : State :=
  match s.startCheck with
  | none => s.arm
  | some code => s.setStopped.reportRun .rearmFailed code

/-- The part of an ACQ-class announcement that every acquisition state shares: NEW buffers marked stale, drawing
abandoned, all planes cleared (03 R60 steps 2 to 4, R63). -/
def State.discardPicture (s : State) : State :=
  let s := s.markStale.abandonDrawing
  s.withPlanes (clearPlanes s.planes Ch.all)

/-- The pool rebuild of a change of ACQ.BUFFERS (03 R64). -/
def State.rebuildIf (buffersChanged : Bool) (s : State) : State := if buffersChanged then s.rebuildPool else s

/-- An ACQ-class announcement (03 R60, R63, R64). -/
def State.announceAcq (buffersChanged : Bool) (s : State) : State :=
  if s.acq.state = .stopped then s.discardPicture.rebuildIf buffersChanged
  else ((s.abandonFilling.discardPicture.stopSequencer).rebuildIf buffersChanged).rearm

/-- A DRAW-class announcement naming planes (05 R94). -/
def State.announceDraw (cs : List Ch) (s : State) : State :=
  if cs = [] then s else s.withPlanes (clearPlanes s.planes cs)

end Sys2Proof.Machine
end

