-- ==== Sys2Proof/Machine/Codes.lean ====
section
/-!
DEFINITION. The code table of 12 R220 and the result codes of 12 R216: the number each name is sent as, and for the
codes a command carries, the name a byte stands for (a byte that is no code of its field is none, 12 R214).
-/

namespace Sys2Proof.Machine

def RunState.code : RunState → Nat
  | .stop => 0
  | .run => 1
  | .single => 2

def AcqState.code : AcqState → Nat
  | .stopped => 0
  | .waitBuffer => 1
  | .arming => 2
  | .ready => 3
  | .triggered => 4

def BufState.code : BufState → Nat
  | .free => 0
  | .filling => 1
  | .new => 2
  | .drawing => 3
  | .shown => 4

def AcqMode.code : AcqMode → Nat
  | .sample => 0
  | .peak => 1
  | .hires => 2

def FireKind.code : FireKind → Nat
  | .sequence => 0
  | .auto => 1
  | .forced => 2

def Access.code : Access → Nat
  | .local => 0
  | .remote => 1
  | .lockout => 2

def Access.ofCode : Nat → Option Access
  | 0 => some .local
  | 1 => some .remote
  | 2 => some .lockout
  | _ => none

def ActMode.ofCode : Nat → Option ActMode
  | 0 => some .off
  | 1 => some .report
  | 2 => some .local
  | 3 => some .both
  | _ => none

def Action.code : Action → Nat
  | .none => 0
  | .runStop => 1
  | .single => 2
  | .force => 3
  | .clearPersist => 4
  | .recall => 5
  | .default => 6
  | .undo => 7
  | .localReturn => 8
  | .toggle => 9
  | .step => 10
  | .adjust => 11

def Action.ofCode : Nat → Option Action
  | 0 => some .none
  | 1 => some .runStop
  | 2 => some .single
  | 3 => some .force
  | 4 => some .clearPersist
  | 5 => some .recall
  | 6 => some .default
  | 7 => some .undo
  | 8 => some .localReturn
  | 9 => some .toggle
  | 10 => some .step
  | 11 => some .adjust
  | _ => none

def LedSource.ofCode : Nat → Option LedSource
  | 0 => some .direct
  | 1 => some .run
  | 2 => some .trigWait
  | 3 => some .single
  | 4 => some (.chan .ch1)
  | 5 => some (.chan .ch2)
  | 6 => some (.chan .ch3)
  | 7 => some (.chan .ch4)
  | 8 => some .remote
  | 9 => some .storeBusy
  | _ => none

def LedState.ofCode : Nat → Option LedState
  | 0 => some .off
  | 1 => some .on
  | 2 => some .slow
  | 3 => some .fast
  | _ => none

def LedCurrent.ofCode : Nat → Option LedCurrent
  | 0 => some .low
  | 1 => some .high
  | _ => none

/-- A yes/no or on/off byte of a command (12 R214). -/
def yesNo : Nat → Option Bool
  | 0 => some false
  | 1 => some true
  | _ => none

def EventKind.code : EventKind → Nat
  | .press => 0
  | .release => 1
  | .repeat_ => 2
  | .turn => 3

def PanelOutcome.code : PanelOutcome → Nat
  | .none => 0
  | .taken => 1
  | .suppressed => 2
  | .refused => 3

def SetupKind.code : SetupKind → Nat
  | .recall => 0
  | .default => 1
  | .undo => 2

def RunCause.code : RunCause → Nat
  | .panel => 0
  | .singleDone => 1
  | .rearmFailed => 2

def SlotState.code : SlotState → Nat
  | .empty => 0
  | .valid => 1
  | .writing => 2
  | .damaged => 3

def HeaderStatus.code : HeaderStatus → Nat
  | .good => 4
  | .erased => 5
  | .bad => 6
  | .writing => 7

def StoreOp.code : StoreOp → Nat
  | .save => 0
  | .erase => 1
  | .setPoweron => 2

def StorePhase.code : StorePhase → Nat
  | .erase => 0
  | .program => 1
  | .verify => 2

def Activity.code : Activity → Nat
  | .idle => 0
  | .reading => 1
  | .writing => 2
  | .starting => 3

def DataStatus.code : DataStatus → Nat
  | .more => 0
  | .complete => 1
  | .cancelled => 2
  | .gone => 3

def ResetKind.code : ResetKind → Nat
  | .powerOn => 0
  | .command => 1

def ResultCode.code : ResultCode → Nat
  | .ok => 0
  | .clamped => 1
  | .busy => 2
  | .state => 3
  | .range => 4
  | .notloaded => 5
  | .limit => 6
  | .nochan => 7
  | .damaged => 8
  | .empty => 9
  | .badcmd => 11
  | .badlen => 12
  | .full => 13
  | .linkerr => 14

end Sys2Proof.Machine
end

