-- ==== Sys2Proof/Machine/Operands.lean ====
section
/-!
DEFINITION. The operand forms: the frame each host command is carried by, and the command the decoder reads from a good
frame by its TYPE and then its LENGTH (10 R187, 12 R215).
-/

namespace Sys2Proof.Machine

/-- Least and greatest LENGTH permitted for a TYPE; none where the TYPE is not a command (12 R215). -/
def permittedLength (type : Nat) : Option (Nat × Nat) :=
  match type with
  | 0x01 => some (0, 0)
  | 0x02 => some (0, 0)
  | 0x10 => some (6, 6)
  | 0x11 => some (49, 49)
  | 0x12 => some (24, 24)
  | 0x13 => some (21, 21)
  | 0x14 => some (13, 13)
  | 0x15 => some (4, 4)
  | 0x20 => some (9, 9)
  | 0x21 => some (1, 1)
  | 0x22 => some (65, 65)
  | 0x23 => some (1, 1)
  | 0x24 => some (816, 816)
  | 0x25 => some (17, 17)
  | 0x26 => some (1, 1)
  | 0x27 => some (0, 0)
  | 0x28 => some (0, 0)
  | 0x29 => some (1, 1)
  | 0x2A => some (1, 1)
  | 0x2B => some (0, 0)
  | 0x30 => some (0, 0)
  | 0x31 => some (0, 0)
  | 0x32 => some (0, 0)
  | 0x33 => some (0, 0)
  | 0x40 => some (0, 0)
  | 0x41 => some (1, 1)
  | 0x42 => some (5, 5)
  | 0x43 => some (1, 1)
  | 0x44 => some (1, 1)
  | 0x45 => some (12, 12)
  | 0x46 => some (0, 0)
  | 0x50 => some (0, 0)
  | 0x51 => some (2, 2048)
  | 0x52 => some (3, 3)
  | 0x53 => some (1, 1)
  | 0x54 => some (2, 2)
  | 0x55 => some (1, 1)
  | _ => none

/-- Two bytes, most significant first. -/
def bytes16 (v : BitVec 16) : List Byte := beBytes 2 v.toNat

/-- Four bytes, most significant first. -/
def bytes32 (v : BitVec 32) : List Byte := beBytes 4 v.toNat

/-- Eight bytes, most significant first. -/
def bytes64 (v : BitVec 64) : List Byte := beBytes 8 v.toNat

/-- The frame a host command arrives in (12 R215, R220); none for the rows that are no command. -/
def frameOf : Instr → Option Frame
  | .status t => some ⟨0x01, t, []⟩
  | .reset t => some ⟨0x02, t, []⟩
  | .loadCorr t ch r z g => some ⟨0x10, t, [ch, r] ++ bytes16 z ++ bytes16 g⟩
  | .loadClut t ch cs => some ⟨0x11, t, ch :: cs⟩
  | .loadPalette t cs => some ⟨0x12, t, cs⟩
  | .loadGlyph t code rows => some ⟨0x13, t, code :: rows⟩
  | .loadAction t c m a s f st r k th fa =>
    some ⟨0x14, t, [c, m, a, s, f] ++ bytes32 st ++ [r, k, th, fa]⟩
  | .loadLed t l s d c => some ⟨0x15, t, [l, s, d, c]⟩
  | .setField t f v => some ⟨0x20, t, f :: bytes64 v⟩
  | .getField t f => some ⟨0x21, t, [f]⟩
  | .setStage t s a b c d e f g h =>
    some ⟨0x22, t, s :: (bytes64 a ++ bytes64 b ++ bytes64 c ++ bytes64 d ++ bytes64 e ++ bytes64 f ++ bytes64 g
      ++ bytes64 h)⟩
  | .getSetup t s => some ⟨0x23, t, [s]⟩
  | .loadSetup t vs => some ⟨0x24, t, vs.flatMap bytes64⟩
  | .save t s n => some ⟨0x25, t, s :: n⟩
  | .recall t s => some ⟨0x26, t, [s]⟩
  | .undo t => some ⟨0x27, t, []⟩
  | .defaultSetup t => some ⟨0x28, t, []⟩
  | .erase t s => some ⟨0x29, t, [s]⟩
  | .setPoweron t s => some ⟨0x2A, t, [s]⟩
  | .slotInfo t => some ⟨0x2B, t, []⟩
  | .run t => some ⟨0x30, t, []⟩
  | .single t => some ⟨0x31, t, []⟩
  | .stop t => some ⟨0x32, t, []⟩
  | .force t => some ⟨0x33, t, []⟩
  | .buffers t => some ⟨0x40, t, []⟩
  | .describe t b => some ⟨0x41, t, [b]⟩
  | .segments t b f c => some ⟨0x42, t, b :: (bytes16 f ++ bytes16 c)⟩
  | .pin t b => some ⟨0x43, t, [b]⟩
  | .unpin t b => some ⟨0x44, t, [b]⟩
  | .read t b ch s f c => some ⟨0x45, t, [b, ch] ++ bytes16 s ++ bytes32 f ++ bytes32 c⟩
  | .readCancel t => some ⟨0x46, t, []⟩
  | .clearPersist t => some ⟨0x50, t, []⟩
  | .text t r c codes => some ⟨0x51, t, r :: c :: codes⟩
  | .cursor t s r c => some ⟨0x52, t, [s, r, c]⟩
  | .panelMode t a => some ⟨0x53, t, [a]⟩
  | .led t l d => some ⟨0x54, t, [l, d]⟩
  | .alarm t v => some ⟨0x55, t, [v]⟩
  | .unknownType f => some f
  | .badlen f => some f
  | _ => none

/-- Byte i of a payload. -/
def Frame.at8 (f : Frame) (i : Nat) : Byte := f.payload.getD i 0

/-- The 16-bit number at byte i of a payload. -/
def Frame.at16 (f : Frame) (i : Nat) : BitVec 16 := BitVec.ofNat 16 (ofBytes ((f.payload.drop i).take 2))

/-- The 32-bit number at byte i of a payload. -/
def Frame.at32 (f : Frame) (i : Nat) : BitVec 32 := BitVec.ofNat 32 (ofBytes ((f.payload.drop i).take 4))

/-- The 64-bit value at byte i of a payload. -/
def Frame.at64 (f : Frame) (i : Nat) : BitVec 64 := BitVec.ofNat 64 (ofBytes ((f.payload.drop i).take 8))

/-- The command a frame of a command TYPE and a permitted LENGTH holds (12 R215). -/
def payloadCommand (f : Frame) : Instr :=
  match f.type.toNat with
  | 0x01 => .status f.tag
  | 0x02 => .reset f.tag
  | 0x10 => .loadCorr f.tag (Frame.at8 f 0) (Frame.at8 f 1) (Frame.at16 f 2) (Frame.at16 f 4)
  | 0x11 => .loadClut f.tag (Frame.at8 f 0) (f.payload.drop 1)
  | 0x12 => .loadPalette f.tag f.payload
  | 0x13 => .loadGlyph f.tag (Frame.at8 f 0) (f.payload.drop 1)
  | 0x14 =>
    .loadAction f.tag (Frame.at8 f 0) (Frame.at8 f 1) (Frame.at8 f 2) (Frame.at8 f 3) (Frame.at8 f 4) (Frame.at32 f 5)
      (Frame.at8 f 9) (Frame.at8 f 10) (Frame.at8 f 11) (Frame.at8 f 12)
  | 0x15 => .loadLed f.tag (Frame.at8 f 0) (Frame.at8 f 1) (Frame.at8 f 2) (Frame.at8 f 3)
  | 0x20 => .setField f.tag (Frame.at8 f 0) (Frame.at64 f 1)
  | 0x21 => .getField f.tag (Frame.at8 f 0)
  | 0x22 =>
    .setStage f.tag (Frame.at8 f 0) (Frame.at64 f 1) (Frame.at64 f 9) (Frame.at64 f 17) (Frame.at64 f 25)
      (Frame.at64 f 33) (Frame.at64 f 41) (Frame.at64 f 49) (Frame.at64 f 57)
  | 0x23 => .getSetup f.tag (Frame.at8 f 0)
  | 0x24 => .loadSetup f.tag ((List.range 102).map (fun k => Frame.at64 f (8 * k)))
  | 0x25 => .save f.tag (Frame.at8 f 0) (f.payload.drop 1)
  | 0x26 => .recall f.tag (Frame.at8 f 0)
  | 0x27 => .undo f.tag
  | 0x28 => .defaultSetup f.tag
  | 0x29 => .erase f.tag (Frame.at8 f 0)
  | 0x2A => .setPoweron f.tag (Frame.at8 f 0)
  | 0x2B => .slotInfo f.tag
  | 0x30 => .run f.tag
  | 0x31 => .single f.tag
  | 0x32 => .stop f.tag
  | 0x33 => .force f.tag
  | 0x40 => .buffers f.tag
  | 0x41 => .describe f.tag (Frame.at8 f 0)
  | 0x42 => .segments f.tag (Frame.at8 f 0) (Frame.at16 f 1) (Frame.at16 f 3)
  | 0x43 => .pin f.tag (Frame.at8 f 0)
  | 0x44 => .unpin f.tag (Frame.at8 f 0)
  | 0x45 => .read f.tag (Frame.at8 f 0) (Frame.at8 f 1) (Frame.at16 f 2) (Frame.at32 f 4) (Frame.at32 f 8)
  | 0x46 => .readCancel f.tag
  | 0x50 => .clearPersist f.tag
  | 0x51 => .text f.tag (Frame.at8 f 0) (Frame.at8 f 1) (f.payload.drop 2)
  | 0x52 => .cursor f.tag (Frame.at8 f 0) (Frame.at8 f 1) (Frame.at8 f 2)
  | 0x53 => .panelMode f.tag (Frame.at8 f 0)
  | 0x54 => .led f.tag (Frame.at8 f 0) (Frame.at8 f 1)
  | 0x55 => .alarm f.tag (Frame.at8 f 0)
  | _ => .unknownType f

/-- What the decoder makes of a good frame: TYPE is checked first, then LENGTH (10 R187). -/
def decodeFrame (f : Frame) : Instr :=
  match permittedLength f.type.toNat with
  | none => .unknownType f
  | some (lo, hi) => if lo ≤ f.payload.length ∧ f.payload.length ≤ hi then payloadCommand f else .badlen f

end Sys2Proof.Machine
end

