-- ==== Sys2Proof/WellFormed.lean ====
section
/-!
DEFINITION. Which operand lists a row of the table can carry. Everything else about an operand (a number outside a range,
a code that is no code of its field) is for the command's owner to refuse by the spec's own result code.
-/

namespace Sys2Proof

/-- An upset lists addresses of the seventeen sectors' used space (log 8). -/
def upsetWf (u : Upset) : Bool := u.all (fun c => decide (c.1 < 17 * 1024))

/-- A payload of at most 2048 bytes (10 R185). -/
def frameWf (f : Frame) : Bool := decide (f.payload.length ≤ 2048)

/-- Well-formed operands. Lists have the length of their field in the payload (12 R215); a key is 0..95 and an encoder
0..7 (07 R122, R126); a TURN carries n within -127..+127 and never 0 (07 R128); an UNKNOWN_TYPE frame has no command's
TYPE, and a BADLEN frame a command's TYPE and a LENGTH not permitted for it (10 R187). -/
def Instr.wf : Instr → Bool
  | .powerOnReset u => upsetWf u
  | .flashEraseEnd u => upsetWf u
  | .flashProgramEnd u => upsetWf u
  | .flashVerifyEnd u => upsetWf u
  | .limitTimerExpiry u => upsetWf u
  | .recallReadEnd u => upsetWf u
  | .powerOnRecallEnd u => upsetWf u
  | .press k => decide (k < 96)
  | .release k => decide (k < 96)
  | .repeatKey k => decide (k < 96)
  | .turn e n => decide (e < 8 ∧ -127 ≤ n ∧ n ≤ 127 ∧ n ≠ 0)
  | .loadClut _ _ cs => decide (cs.length = 48)
  | .loadPalette _ cs => decide (cs.length = 24)
  | .loadGlyph _ _ rows => decide (rows.length = 20)
  | .loadSetup _ vs => decide (vs.length = 102)
  | .save _ _ name => decide (name.length = 16)
  | .text _ _ _ codes => decide (codes.length ≤ 2046)
  | .unknownType f => frameWf f && decide (Machine.permittedLength f.type.toNat = none)
  | .badlen f =>
    frameWf f &&
      (match Machine.permittedLength f.type.toNat with
       | none => false
       | some (lo, hi) => decide (f.payload.length < lo ∨ hi < f.payload.length))
  | _ => true

end Sys2Proof
end

