-- ==== Sys2Proof/Machine/Command.lean ====
section
/-!
DEFINITION. How the decoder takes a host command (10 R186, R187), how an owner holds one (10 R187), and when a row's
operands are refused.
-/

namespace Sys2Proof.Machine

/-- The decoder takes the frame of command `i`: the front frame of the command FIFO, where that is what it decodes to; or,
where the FIFO is empty and the receiver can accept a frame, a frame that arrives and is taken at once, of whose words
nothing is held (log 4). None where the decoder waits, has no room for the response, or holds another frame at the
front. -/
def State.takeFrame (i : Instr) (s : State) : Option State :=
  if s.decoderFree then
    match s.link.fifo with
    | g :: rest => if decodeFrame g = i then some (s.withLink { s.link with fifo := rest }) else none
    | [] => if s.link.aligned && decide (s.link.framer = .waiting) then some s else none
  else none

/-- A row whose operands are well formed runs; others are refused (log 21). -/
def guarded (i : Instr) (run : State → State) (s : State) : Host.Outcome State Fault Refusal :=
  if i.wf then .next (run s) else .refused .illFormed

/-- A host command: taken by the decoder and handed to its owner, or nothing where the decoder does not take it (log 2). -/
def command (i : Instr) (run : State → State) (s : State) : Host.Outcome State Fault Refusal :=
  guarded i (fun s => match s.takeFrame i with
    | some t => run t
    | none => s) s

/-- The owner holds a command: the decoder waits on it, and its place in the response queue stays reserved (10 R187,
R189). -/
def State.hold (i : Instr) (s : State) : State := s.withLink { s.link with waiting := some i }

/-- A setup change, RUN, SINGLE or STOP: held while power-on recall is in progress (08 R163, 03 R67). -/
def State.holdRecalling (i : Instr) (take : State → State) (s : State) : State :=
  if s.recalling then s.hold i else take s

/-- A request of the Setup Store: held in READING and STARTING (09 R167). -/
def State.holdStore (i : Instr) (take : State → State) (s : State) : State :=
  if s.storeHolds then s.hold i else take s

end Sys2Proof.Machine
end

