-- ==== Sys2Proof/Machine/Link.lean ====
section
/-!
DEFINITION. The Link Controller (chapter 10): frames received and abandoned, the decoder's own refusals, STATUS, and the
transmitter with the payloads of 12 R215 to R218.
-/

namespace Sys2Proof.Machine

/-! ## Reception (10 R184 to R186, R189) -/

/-- A LINKERR or FULL response is queued where there is room for it (10 R189). -/
def State.errorResponse (r : Resp) (s : State) : State := if s.responseRoom then s.withLink (s.link.respond r) else s

/-- The LINKERR response of a frame that is abandoned or fails its check (10 R184, R185, R188). -/
def State.linkErr (s : State) : State := s.errorResponse ⟨0, 0, .linkerr, []⟩

/-- The frame that the bytes between SOF and EOF hold, if it is good (10 R185): at least 6 bytes, LENGTH 0..2048, exactly
6 + LENGTH bytes, and the check over all but the last two. -/
def goodFrame (bs : List Byte) : Option Frame :=
  match bs with
  | type :: tag :: hi :: lo :: rest =>
    let len := ofBytes [hi, lo]
    if 6 ≤ bs.length ∧ len ≤ 2048 ∧ bs.length = 6 + len ∧
        rest.drop len = beBytes 2 (crc16 (bs.take (4 + len))).toNat then
      some ⟨type, tag, rest.take len⟩
    else none
  | _ => none

/-- A good frame is offered to the command FIFO (10 R186). -/
def State.offerFrame (f : Frame) (s : State) : State :=
  if s.link.fifo.length < Config.commandFifoDepth then s.withLink { s.link with fifo := s.link.fifo ++ [f] }
  else s.errorResponse ⟨f.type, f.tag, .full, []⟩

/-- A frame ended by EOF is checked, and the framer waits for the next SOF (10 R185). -/
def State.checkFrame (bs : List Byte) (s : State) : State :=
  let s := s.withLink { s.link with framer := .waiting }
  match goodFrame bs with
  | some f => s.offerFrame f
  | none => s.linkErr

/-- A partial frame is abandoned: what the framer and the alignment become, and the LINKERR response (10 R184). -/
def State.abandonFrame (framer : Framer) (aligned : Bool) (s : State) : State :=
  (s.withLink { s.link with framer := framer, aligned := aligned }).linkErr

/-- What a symbol can be on the incoming lane besides a step of the receiver: each is a row of the table. -/
inductive LaneEvent where
  | received
  | abandoned
  | codeError
  | alignment
  deriving DecidableEq, Repr

/-- A symbol at an aligned receiver whose framer waits: SOF begins a frame, and every other is ignored (10 R184). -/
def Link.takeWaiting (l : Link) (x : LaneSymbol) : Link := if x = .sof then { l with framer := .receiving [] } else l

/-- A symbol at an aligned receiver that is receiving, with the partial frame as it stands (10 R184). -/
def State.takeReceiving (bs : List Byte) (x : LaneSymbol) (s : State) : State × Option LaneEvent :=
  match x with
  | .data b =>
    if bs.length < Config.frameBytesMax then (s.withLink { s.link with framer := .receiving (bs ++ [b]) }, none)
    else (s.abandonFrame .waiting true, some .abandoned)
  | .eof => (s.checkFrame bs, some .received)
  | .sof => (s.abandonFrame (.receiving []) true, some .abandoned)
  | .idle => (s.abandonFrame .waiting true, some .abandoned)

/-- A word arrives on the incoming lane (10 R183, R184): the state it leaves, and the event it is, if any. Without alignment
a comma symbol alone is seen: it gives the alignment and the disparity, and begins a frame if it is SOF (log 36). -/
def State.takeWord (w : LaneWord) (s : State) : State × Option LaneEvent :=
  if s.link.aligned then
    match wordSymbol s.link.rxDisparity w, s.link.framer with
    | none, .waiting => (s.withLink { s.link with aligned := false }, some .codeError)
    | none, .receiving _ => (s.abandonFrame .waiting false, some .abandoned)
    | some x, .waiting =>
      (s.withLink (Link.takeWaiting { s.link with rxDisparity := disparityAfter s.link.rxDisparity w } x), none)
    | some x, .receiving bs =>
      (s.withLink { s.link with rxDisparity := disparityAfter s.link.rxDisparity w }).takeReceiving bs x
  else
    match wordComma w with
    | none => (s, none)
    | some (x, rd) =>
      (s.withLink (Link.takeWaiting { s.link with aligned := true, rxDisparity := disparityAfter rd w } x), some .alignment)

/-- The words that a row of the incoming lane carries: those that are no event of the table pass, and the last may be the
row's own. None where another event lies among them (log 2). -/
def State.takeWords (own : LaneEvent) : List LaneWord → State → Option State
  | [], s => some s
  | w :: rest, s =>
    match s.takeWord w with
    | (t, none) => State.takeWords own rest t
    | (t, some e) => if e = own ∧ rest = [] then some t else none

/-- A row of the incoming lane. -/
def laneRow (own : LaneEvent) (words : List LaneWord) (s : State) : Host.Outcome State Fault Refusal :=
  .next ((s.takeWords own words).getD s)

/-- FRAME_RECEIVED (10 R185). -/
def execFrameReceived (words : List LaneWord) (s : State) : Host.Outcome State Fault Refusal := laneRow .received words s

/-- FRAME_ABANDONED (10 R184). -/
def execFrameAbandoned (words : List LaneWord) (s : State) : Host.Outcome State Fault Refusal := laneRow .abandoned words s

/-- CODE_ERROR_OUTSIDE_FRAME (10 R183, R184). -/
def execCodeErrorOutsideFrame (s : State) (words : List LaneWord := []) : Host.Outcome State Fault Refusal :=
  laneRow .codeError words s

/-- SYMBOL_ALIGNMENT_FOUND (10 R183). -/
def execSymbolAlignmentFound (s : State) (words : List LaneWord := []) : Host.Outcome State Fault Refusal :=
  laneRow .alignment words s

/-! ## The decoder's own answers (10 R187) -/

/-- UNKNOWN_TYPE (10 R187). -/
def execUnknownType (f : Frame) (s : State) : Host.Outcome State Fault Refusal :=
  command (.unknownType f) (fun t => t.answer f.type f.tag .badcmd []) s

/-- BADLEN (10 R187). -/
def execBadlen (f : Frame) (s : State) : Host.Outcome State Fault Refusal :=
  command (.badlen f) (fun t => t.answer f.type f.tag .badlen []) s

/-! ## STATUS (10 R190, 12 R216) -/

/-- The Rasterizer's fields of a STATUS answer: state, buffer, channel, segment, column. 12 R216 gives values for no buffer
and no channel; DESIGN CHOICE (log 37): segment and column, which IDLE does not hold (05 R79), are answered 0 there. -/
def State.rasterBytes (s : State) : List Byte :=
  match s.ras.drawing with
  | none => [0, 0xFF, 0] ++ beBytes 2 0 ++ beBytes 2 0
  | some d =>
    let ch := match (s.pool.buf d.buf).desc with
      | some ds => (ds.values.chans[d.place]?).elim 0 (fun c => c.1.num)
      | none => 0
    [1, BitVec.ofNat 8 d.buf, BitVec.ofNat 8 ch] ++ beBytes 2 d.seg ++ beBytes 2 d.col

/-- The current buffer's byte, 0xFF for none. -/
def State.curByte (s : State) : Byte :=
  match s.acq.cur with
  | some b => BitVec.ofNat 8 b
  | none => 0xFF

/-- The STATUS answer of 37 bytes (10 R190, 12 R216). -/
def State.statusBytes (s : State) : List Byte :=
  beBytes 6 s.trg.tick.toNat
    ++ [flagsByte [s.trg.enabled, s.trg.holdoff.isSome, s.trg.autoPending, s.trg.forcePending],
        BitVec.ofNat 8 s.trg.stage, BitVec.ofNat 8 s.acq.run.code, BitVec.ofNat 8 s.acq.state.code, s.curByte]
    ++ beBytes 2 s.acq.segIdx ++ beBytes 4 s.acq.fill ++ beBytes 2 s.smc.fifo.length ++ s.rasterBytes
    ++ beBytes 4 s.comp.frame.toNat
    ++ [flagByte s.comp.dim, BitVec.ofNat 8 s.panel.access.code, flagByte s.panel.alarm,
        BitVec.ofNat 8 s.store.activity.code, BitVec.ofNat 8 s.link.fifo.length,
        BitVec.ofNat 8 s.link.reports.length, flagsByte [s.link.lost, s.readout.stream.isSome]]

/-- STATUS once taken (10 R190). -/
def State.takeStatus (tag : Byte) (s : State) : State := s.answer 0x01 tag .ok s.statusBytes

/-- STATUS (10 R190). -/
def execStatus (tag : Byte) (s : State) : Host.Outcome State Fault Refusal :=
  command (.status tag) (State.takeStatus tag) s

/-! ## Frames sent (12 R215 to R218) -/

/-- A RESP payload (12 R216). -/
def Resp.payload (r : Resp) : List Byte := [r.type, BitVec.ofNat 8 r.code.code] ++ r.data

/-- The STORE report's data (12 R217). -/
def storeData (op : StoreOp) (slot : Nat) (tag : Byte) (ok : Bool) (state : Nat) (collided : Bool) : List Byte :=
  [BitVec.ofNat 8 op.code, BitVec.ofNat 8 slot, tag, flagByte (!ok), BitVec.ofNat 8 state, flagByte collided]

/-- The kind code of a report (12 R217). -/
def ReportBody.kind : ReportBody → Nat
  | .panel _ _ _ _ => 1
  | .field _ _ => 2
  | .setup _ _ => 3
  | .runstate _ _ _ _ => 4
  | .acq _ _ _ _ _ _ => 5
  | .storeSlot _ _ _ _ _ _ => 6
  | .storeHeader _ _ _ _ _ => 6
  | .wake _ _ => 7
  | .powerup _ _ _ _ _ _ => 8

/-- A report kind's data (12 R217). -/
def ReportBody.data : ReportBody → List Byte
  | .panel e a o c =>
    [BitVec.ofNat 8 e.code, BitVec.ofNat 8 e.kind.code] ++ signedBytes 1 e.n
      ++ [BitVec.ofNat 8 a.code, BitVec.ofNat 8 o.code, BitVec.ofNat 8 c.code]
  | .field id v => BitVec.ofNat 8 id :: signedBytes 8 v
  | .setup k slot =>
    [0, BitVec.ofNat 8 k.code,
      match slot with
      | some n => BitVec.ofNat 8 n
      | none => 0xFF]
  | .runstate r a c code =>
    [BitVec.ofNat 8 r.code, BitVec.ofNat 8 a.code, BitVec.ofNat 8 c.code, BitVec.ofNat 8 code.code]
  | .acq b seq n k g c =>
    [BitVec.ofNat 8 b] ++ beBytes 4 seq.toNat ++ [BitVec.ofNat 8 n, BitVec.ofNat 8 k, flagsByte [g, c]]
  | .storeSlot op slot tag ok st col => storeData op slot tag ok st.code col
  | .storeHeader slot tag ok st col => storeData .setPoweron slot tag ok st.code col
  | .wake code k => [BitVec.ofNat 8 code, BitVec.ofNat 8 k.code]
  | .powerup k named placed fb st d =>
    [BitVec.ofNat 8 k.code, BitVec.ofNat 8 named, BitVec.ofNat 8 placed, flagByte fb, BitVec.ofNat 8 st.code,
      BitVec.ofNat 8 d]

/-- A REPORT payload (12 R217). -/
def Report.payload (r : Report) : List Byte := [BitVec.ofNat 8 r.body.kind, flagsByte [r.lost]] ++ r.body.data

/-- A DATA payload (12 R218). -/
def DataFrame.payload (f : DataFrame) : List Byte :=
  beBytes 4 f.first ++ beBytes 2 f.count ++ [BitVec.ofNat 8 f.status.code, flagByte f.collided]
    ++ f.words.flatMap (fun w => beBytes 2 w.toNat)

/-! ## The transmitter (10 R197) -/

/-- A frame is sent on the idle outgoing lane: its SOF follows the IDLE in progress, which is sent whole (10 R183), and from
there the frame occupies the lane for (p + 9) x 8 ticks (10 R197). DESIGN CHOICE (log 36): the frame is in transmission from the pick
on. -/
def State.send (type tag : Byte) (payload : List Byte) (s : State) : State :=
  s.withLink { s.link with
    lane := some ⟨frameBytes type tag payload, s.link.idleAt s.symbolStart,
      s.symbolStart + ticks ((payload.length + 9) * 8)⟩ }

/-- The ready DATA frame begins transmission: its words leave the fetch store (11 R207), and a stream it is a frame of has
sent up to its last record index (11 R209). -/
def State.dropReady (f : DataFrame) (rest : List DataFrame) (s : State) : State :=
  s.withReadout {
    stream := if f.status = .more then s.readout.stream.map (fun st => { st with sent := f.first + f.count })
      else s.readout.stream,
    words := s.readout.words.drop f.words.length, frames := rest }

/-- The transmitter picks among the candidates in the order RESP, REPORT, DATA (10 R197). -/
def State.pick (s : State) : State :=
  match s.link.resp, s.link.reports, s.readout.frames with
  | r :: rest, _, _ => (s.withLink { s.link with resp := rest }).send 0x80 r.tag r.payload
  | [], r :: rest, _ => (s.withLink { s.link with reports := rest }).send 0x81 0 r.payload
  | [], [], f :: rest => (s.dropReady f rest).send 0x82 f.tag f.payload
  | [], [], [] => s

/-- An idle lane takes a candidate, unless a deferred RESET is due, which discards the reports (09 R177, 10 R191). -/
def State.startIdle (s : State) : State :=
  match s.link.lane with
  | none => if s.resetDue then s else s.pick
  | some _ => s

/-- The lane falls free at the end of a frame, and sends IDLE from there (10 R183, R197). -/
def State.freeLane (t : Tx) (s : State) : State :=
  s.withLink { s.link with lane := none, txDisparity := disparityOver t.disparity t.symbols, idleFrom := t.ends }

/-- TRANSMISSION_START (10 R197). -/
def execTransmissionStart (s : State) : Host.Outcome State Fault Refusal := .next s.startIdle

/-- TRANSMISSION_END (10 R197). -/
def execTransmissionEnd (s : State) : Host.Outcome State Fault Refusal :=
  match s.link.lane with
  | some t => if s.due t.ends then .next ((s.freeLane t).arrive t.ends) else .next s
  | none => .next s

end Sys2Proof.Machine
end

