-- ==== Sys2Proof/Machine/Loads.lean ====
section
/-!
DEFINITION. The table loads and the commands of the screen and the panel that no state of the part holds (10 R192):
LOAD_CORR, LOAD_CLUT, LOAD_PALETTE, LOAD_GLYPH, LOAD_ACTION, LOAD_LED, CLEAR_PERSIST, TEXT, CURSOR, PANEL_MODE, LED and
ALARM. Each function below says what the command does once the decoder has taken its frame.
-/

namespace Sys2Proof.Machine

/-- LOAD_CORR (01 R3). -/
def State.takeLoadCorr (tag channel range : Byte) (zero gain : BitVec 16) (s : State) : State :=
  match Ch.ofNum channel.toNat with
  | none => s.answer 0x10 tag .range []
  | some c =>
    if 11 < range.toNat ∨ 1023 < zero.toNat ∨ gain.toNat < 1024 ∨ 8191 < gain.toNat then s.answer 0x10 tag .range []
    else
      (s.withSp { s.sp with
        corr := s.sp.corr.set corrDefault (corrKey c range.toNat) ⟨zero.toNat, gain.toNat, true⟩ }).answer 0x10 tag .ok []

/-- Colours of three bytes each: red, green, blue (12 R214). -/
def coloursOf : List Byte → List Colour
  | r :: g :: b :: rest => ⟨r, g, b⟩ :: coloursOf rest
  | _ => []

/-- LOAD_CLUT (06 R105). -/
def State.takeLoadClut (tag channel : Byte) (bytes : List Byte) (s : State) : State :=
  match Ch.ofNum channel.toNat with
  | none => s.answer 0x11 tag .range []
  | some c =>
    (s.withComp { s.comp with clut := s.comp.clut.setRun black ((c.num - 1) * 16) (coloursOf bytes) }).answer
      0x11 tag .ok []

/-- LOAD_PALETTE (06 R106). -/
def State.takeLoadPalette (tag : Byte) (bytes : List Byte) (s : State) : State :=
  (s.withComp { s.comp with palette := s.comp.palette.setRun black 0 (coloursOf bytes) }).answer 0x12 tag .ok []

/-- LOAD_GLYPH (06 R115). -/
def State.takeLoadGlyph (tag code : Byte) (rows : List Byte) (s : State) : State :=
  if code.toNat < 0x80 then s.answer 0x13 tag .range []
  else
    (s.withComp { s.comp with glyphs := s.comp.glyphs.setRun zeroByte ((code.toNat - 0x80) * 20) rows }).answer
      0x13 tag .ok []

/-- Whether an action names a field (07 R129). -/
def Action.usesField : Action → Bool
  | .toggle => true
  | .step => true
  | .adjust => true
  | _ => false

/-- Whether an action carries a step (07 R129, 12 R220). -/
def Action.usesStep : Action → Bool
  | .step => true
  | .adjust => true
  | _ => false

/-- The entry a LOAD_ACTION carries, or none where a check refuses it (07 R130, 12 R220). -/
def actionEntry (mode action slot field : Byte) (step : BitVec 32) (rep click threshold factor : Byte) :
    Option ActionEntry :=
  match ActMode.ofCode mode.toNat, Action.ofCode action.toNat, yesNo rep.toNat, yesNo click.toNat with
  | some m, some a, some r, some k =>
    if (threshold.toNat ≠ 0 ∧ (threshold.toNat < 2 ∨ 15 < threshold.toNat)) ∨ factor.toNat < 2 ∨ 10 < factor.toNat
        ∨ (a = .recall ∧ 16 < slot.toNat) ∨ (a.usesField ∧ catalogue field.toNat = none) then none
    else
      some { mode := m, action := a, slot := if a = .recall then some slot.toNat else none,
             field := if a.usesField then some field.toNat else none,
             step := if a.usesStep then some step.toInt else none, rep := r, click := k,
             threshold := threshold.toNat, factor := factor.toNat }
  | _, _, _, _ => none

/-- LOAD_ACTION (07 R130). -/
def State.takeLoadAction (tag control : Byte) (entry : Option ActionEntry) (s : State) : State :=
  match entry with
  | none => s.answer 0x14 tag .range []
  | some e =>
    if 103 < control.toNat then s.answer 0x14 tag .range []
    else
      (s.withPanel { s.panel with actions := s.panel.actions.set actionDefault control.toNat e }).answer 0x14 tag .ok []

/-- LOAD_LED (07 R141). -/
def State.takeLoadLed (tag led source direct current : Byte) (s : State) : State :=
  match LedSource.ofCode source.toNat, LedState.ofCode direct.toNat, LedCurrent.ofCode current.toNat with
  | some src, some d, some cur =>
    if 31 < led.toNat then s.answer 0x15 tag .range []
    else
      (s.withPanel { s.panel with leds := s.panel.leds.set ledDefault led.toNat ⟨src, d, cur⟩ }).answer 0x15 tag .ok []
  | _, _, _ => s.answer 0x15 tag .range []

/-- LED (07 R141). -/
def State.takeLed (tag led direct : Byte) (s : State) : State :=
  match LedState.ofCode direct.toNat with
  | none => s.answer 0x54 tag .range []
  | some d =>
    if 31 < led.toNat then s.answer 0x54 tag .range []
    else
      (s.withPanel { s.panel with
        leds := s.panel.leds.set ledDefault led.toNat { s.panel.led led.toNat with direct := d } }).answer 0x54 tag .ok []

/-- All four planes cleared (05 R95). -/
def State.clearPersist (s : State) : State := s.withPlanes (clearPlanes s.planes Ch.all)

/-- CLEAR_PERSIST (05 R95). -/
def State.takeClearPersist (tag : Byte) (s : State) : State := s.clearPersist.answer 0x50 tag .ok []

/-- TEXT (06 R116). -/
def State.takeText (tag row column : Byte) (codes : List Byte) (s : State) : State :=
  if 23 < row.toNat ∨ 99 < column.toNat then s.answer 0x51 tag .range []
  else
    let start := 100 * row.toNat + column.toNat
    let written := codes.take (2400 - start)
    (s.withComp { s.comp with text := s.comp.text.setRun zeroByte start written }).answer 0x51 tag
      (if written.length = codes.length then .ok else .clamped) (beBytes 2 written.length)

/-- CURSOR (06 R117). -/
def State.takeCursor (tag state row column : Byte) (s : State) : State :=
  match yesNo state.toNat with
  | none => s.answer 0x52 tag .range []
  | some on =>
    if 23 < row.toNat ∨ 99 < column.toNat then s.answer 0x52 tag .range []
    else (s.withComp { s.comp with cursor := ⟨on, row.toNat, column.toNat⟩ }).answer 0x52 tag .ok []

/-- PANEL_MODE (07 R137). -/
def State.takePanelMode (tag access : Byte) (s : State) : State :=
  match Access.ofCode access.toNat with
  | none => s.answer 0x53 tag .range []
  | some a => (s.withPanel { s.panel with access := a }).answer 0x53 tag .ok []

/-- The alarm flag set to a value (07 R144): ON taken while it is OFF sounds the alarm, a click in progress absorbed. -/
def State.setAlarm (on : Bool) (s : State) : State :=
  if on && !s.panel.alarm then
    s.withPanel { s.panel with alarm := true, alarmEnd := some (s.after (millis 250)), click := none }
  else s.withPanel { s.panel with alarm := on }

/-- ALARM (07 R144). -/
def State.takeAlarm (tag value : Byte) (s : State) : State :=
  match yesNo value.toNat with
  | none => s.answer 0x55 tag .range []
  | some on => (s.setAlarm on).answer 0x55 tag .ok []

/-! ## The rows -/

/-- LOAD_CORR (01 R3). -/
def execLoadCorr (tag channel range : Byte) (zero gain : BitVec 16) (s : State) : Host.Outcome State Fault Refusal :=
  command (.loadCorr tag channel range zero gain) (State.takeLoadCorr tag channel range zero gain) s

/-- LOAD_CLUT (06 R105). -/
def execLoadClut (tag channel : Byte) (colours : List Byte) (s : State) : Host.Outcome State Fault Refusal :=
  command (.loadClut tag channel colours) (State.takeLoadClut tag channel colours) s

/-- LOAD_PALETTE (06 R106). -/
def execLoadPalette (tag : Byte) (colours : List Byte) (s : State) : Host.Outcome State Fault Refusal :=
  command (.loadPalette tag colours) (State.takeLoadPalette tag colours) s

/-- LOAD_GLYPH (06 R115). -/
def execLoadGlyph (tag code : Byte) (rows : List Byte) (s : State) : Host.Outcome State Fault Refusal :=
  command (.loadGlyph tag code rows) (State.takeLoadGlyph tag code rows) s

/-- LOAD_ACTION (07 R130). -/
def execLoadAction (tag control mode action slot field : Byte) (step : BitVec 32) (rep click threshold factor : Byte)
    (s : State) : Host.Outcome State Fault Refusal :=
  command (.loadAction tag control mode action slot field step rep click threshold factor)
    (State.takeLoadAction tag control (actionEntry mode action slot field step rep click threshold factor)) s

/-- LOAD_LED (07 R141). -/
def execLoadLed (tag led source direct current : Byte) (s : State) : Host.Outcome State Fault Refusal :=
  command (.loadLed tag led source direct current) (State.takeLoadLed tag led source direct current) s

/-- LED (07 R141). -/
def execLed (tag led direct : Byte) (s : State) : Host.Outcome State Fault Refusal :=
  command (.led tag led direct) (State.takeLed tag led direct) s

/-- CLEAR_PERSIST (05 R95). -/
def execClearPersist (tag : Byte) (s : State) : Host.Outcome State Fault Refusal :=
  command (.clearPersist tag) (State.takeClearPersist tag) s

/-- TEXT (06 R116). -/
def execText (tag row column : Byte) (codes : List Byte) (s : State) : Host.Outcome State Fault Refusal :=
  command (.text tag row column codes) (State.takeText tag row column codes) s

/-- CURSOR (06 R117). -/
def execCursor (tag state row column : Byte) (s : State) : Host.Outcome State Fault Refusal :=
  command (.cursor tag state row column) (State.takeCursor tag state row column) s

/-- PANEL_MODE (07 R137). -/
def execPanelMode (tag access : Byte) (s : State) : Host.Outcome State Fault Refusal :=
  command (.panelMode tag access) (State.takePanelMode tag access) s

/-- ALARM (07 R144). -/
def execAlarm (tag value : Byte) (s : State) : Host.Outcome State Fault Refusal :=
  command (.alarm tag value) (State.takeAlarm tag value) s

end Sys2Proof.Machine
end

