-- ==== Sys2Proof/Machine/Memory.lean ====
section
/-!
DEFINITION. The Sample Memory Controller (chapter 4): the requests, the arbitration, and the ends of the three kinds of
grant.
-/

namespace Sys2Proof.Machine

/-- The three requesters (04, section 4.3). -/
inductive Requester where
  | acqWrite
  | drawRead
  | readout
  deriving DecidableEq, Repr

/-- Whether ACQ_WRITE holds a request: 64 words wait, or any word waits and no segment is being filled (04 R73). -/
def State.writeRequest (s : State) : Bool :=
  decide (Config.burstWords ≤ s.smc.fifo.length) || (!s.smc.fifo.isEmpty && s.sp.grouping.isNone)

/-- The request READOUT holds: the next min(64, words left) words of the stream, where the fetch store has room
(11 R206). -/
def State.readoutRequest (s : State) : Option Burst :=
  match s.readout.stream with
  | none => none
  | some st =>
    let k := min Config.burstWords (st.remaining * st.perIndex)
    if k = 0 ∨ Config.fetchStoreDepth < s.readout.words.length + k then none
    else some ⟨st.base, st.len, st.pos, k⟩

/-- The order of the requesters under MEM.PROMOTE (04 R73). -/
def promoteOrder : Promote → List Requester
  | .none => [.acqWrite, .drawRead, .readout]
  | .draw => [.drawRead, .acqWrite, .readout]
  | .readout => [.readout, .acqWrite, .drawRead]

/-- What a requester's request would be granted; none where it holds no request (04 R74). -/
def State.request (s : State) : Requester → Option GrantJob
  | .acqWrite => if s.writeRequest then some (.write (s.smc.fifo.take Config.burstWords) true) else none
  | .drawRead => s.drawRequest.map (fun b => .draw b true)
  | .readout => s.readoutRequest.map (fun b => .readout b true)

/-- The grant arbitration gives: to the first requester in the order that holds a request (04 R73). -/
def State.winner (s : State) : Option GrantJob := (promoteOrder s.w.promote).findSome? s.request

/-- ARBITRATION (04 R73): a free port is granted for 6 ticks. -/
def execArbitration (s : State) : Host.Outcome State Fault Refusal :=
  match s.smc.grant, s.winner with
  | none, some job => .next (s.withSmc { s.smc with grant := some ⟨s.instant + 6, job⟩ })
  | _, _ => .next s

/-- Whether every word of a list of addresses exists (04 R68). -/
def wordsExist (as : List Nat) : Bool := as.all (fun a => decide (a < Config.memoryWords))

/-- The port free again. -/
def State.freePort (s : State) : State := s.withSmc { s.smc with grant := none }

/-- The end of a write grant: its words are written and its entries leave the FIFO (04 R74). -/
def State.endWrite (es : List FifoEntry) (attached : Bool) (s : State) : State :=
  ((s.withMem (writeEntries s.mem es)).withSmc
    { fifo := if attached then s.smc.fifo.drop es.length else s.smc.fifo, grant := none })

/-- A write grant that is due at the tick of the last sample ends between two words of that sample's group (04 R72). -/
def State.endDueWrite (s : State) : State :=
  match s.smc.grant with
  | some ⟨e, .write es attached⟩ =>
    if reached s.lastTick e && wordsExist (es.map (fun x => x.addr)) then s.endWrite es attached else s
  | _ => s

/-- ACQ_WRITE_GRANT_END (04 R74). -/
def execAcqWriteGrantEnd (s : State) : Host.Outcome State Fault Refusal :=
  match s.smc.grant with
  | some ⟨e, .write es attached⟩ =>
    if s.due e then
      if wordsExist (es.map (fun x => x.addr)) then .next ((s.endWrite es attached).arrive e)
      else .fault .noSuchWord
    else .next s
  | _ => .next s

/-- DRAW_READ_GRANT_END (05 R83): the words are delivered, or discarded where the Rasterizer has withdrawn (04 R76). -/
def execDrawReadGrantEnd (s : State) : Host.Outcome State Fault Refusal :=
  match s.smc.grant with
  | some ⟨e, .draw b wanted⟩ =>
    if s.due e then
      if wordsExist b.addrs then
        .next ((if wanted then s.freePort.deliverDraw b else s.freePort).arrive e)
      else .fault .noSuchWord
    else .next s
  | _ => .next s

/-- The delivery of a burst the stream wanted: appended to the fetch store, the next position and record index moved on
(11 R206). -/
def State.deliverReadout (b : Burst) (s : State) : State :=
  match s.readout.stream with
  | none => s
  | some st =>
    s.withReadout { s.readout with
      words := s.readout.words ++ s.burstWords b,
      stream := some { st with pos := (st.pos + b.count) % st.len, next := st.next + b.count / st.perIndex,
                               remaining := st.remaining - b.count / st.perIndex } }

/-- READOUT_GRANT_END (11 R206). -/
def execReadoutGrantEnd (s : State) : Host.Outcome State Fault Refusal :=
  match s.smc.grant with
  | some ⟨e, .readout b wanted⟩ =>
    if s.due e then
      if wordsExist b.addrs then
        .next ((if wanted then s.freePort.deliverReadout b else s.freePort).arrive e)
      else .fault .noSuchWord
    else .next s
  | _ => .next s

end Sys2Proof.Machine
end

