-- ==== Sys2Proof/Machine/Setup.lean ====
section
/-!
DEFINITION. The Setup Controller (chapter 8): placing a setup with the effects of the classes it changes, and what the
setup requests of the host and the panel do once they are taken.
-/

namespace Sys2Proof.Machine

/-! ## Effects of a change (08 R154 to R156) -/

/-- The idle timer (re)started with DSP.IDLE, or stopped where that is 0 (07 R139). DESIGN CHOICE (log 45): a PRESS, RELEASE or
TURN that waited unhandled (07 R131) restarts it at its handling. -/
def State.restartIdle (s : State) : State :=
  s.withPanel { s.panel with
    idle := if s.w.idleMinutes = 0 then none else some (s.after (ticks (s.w.idleMinutes * 60000000000))) }

/-- What a change of DSP.IDLE does at once (07 R139): in the dim state the timer is not started. DESIGN CHOICE (log 43): one
that runs there, from a RELEASE, is not restarted by another value than 0 and keeps its expiry. -/
def State.changeIdle (old : Setup) (s : State) : State :=
  if old.idleMinutes = s.w.idleMinutes then s
  else if s.comp.dim then
    if s.w.idleMinutes = 0 then s.withPanel { s.panel with idle := none } else s
  else s.restartIdle

/-- The working setup replaced, with what LIVE fields and TRG.MODE do at once (02 R32, 07 R139). -/
def State.replaceWorking (new : Setup) (s : State) : State :=
  let old := s.w
  ((s.withSetup { s.setup with working := new }).changeAutoTime old |>.changeTrigMode old).changeIdle old

/-- The planes that the changed fields name, for the one DRAW announcement (08 R156). -/
def drawnPlanes (changed : List Nat) : List Ch := Ch.all.filter (fun c => changed.any (fun id => decide (c ∈ planesOf id)))

/-- The announcements of the classes that changed fields have: ACQ, which includes TRIG, or else TRIG; and DRAW
(08 R156). -/
def State.announce (changed : List Nat) (s : State) : State :=
  (if changed.any isAcq then s.announceAcq (decide (0x06 ∈ changed))
   else if changed.any isTrig then s.announceTrig
   else s).announceDraw (drawnPlanes changed)

/-- Place a setup: all stored values first; then what the request's own event does besides (`told`: its reports among it);
then each changed class once, whose announcement is a later event of its owners, so that a RUNSTATE report of a failed re-arm
comes behind the reports of the request (08 R155, R156, 10 R197, log 26). -/
def State.placeSetup (new : Setup) (told : State → State) (s : State) : State :=
  (told (s.replaceWorking new)).announce (changedIds s.w new)

/-- Auto-remote after a host change (07 R138), reading PNL.AUTOREMOTE as the change leaves it. -/
def State.remoteIf (changed : Bool) (s : State) : State :=
  if changed && s.w.autoRemote && decide (s.panel.access = .local) then
    s.withPanel { s.panel with access := .remote }
  else s

/-- Whether two setups differ in a field. -/
def setupDiffers (old new : Setup) : Bool := !(changedIds old new).isEmpty

/-- The waiting FIELD reports of changed fields updated in place (08 R158). -/
def State.updateFields (ids : List Nat) (s : State) : State :=
  s.withLink (ids.foldl (fun l id => l.updateField id (s.w.val id)) s.link)

/-- A host change of one field or one stage: placed, waiting FIELD reports updated, auto-remote (08 R149, R151, R158). -/
def State.hostPlace (new : Setup) (s : State) : State :=
  s.placeSetup new (fun t => (t.updateFields (changedIds s.w new)).remoteIf (setupDiffers s.w new))

/-- The working setup copied into the shadow, and a whole setup placed (08 R152, R160 to R162). -/
def State.placeWhole (new : Setup) (told : State → State) (s : State) : State :=
  (s.withSetup { s.setup with shadow := s.w }).placeSetup new told

/-- A whole setup placed by the host: waiting FIELD reports removed, auto-remote (08 R158, 07 R138). -/
def State.hostPlaceWhole (new : Setup) (s : State) : State :=
  s.placeWhole new (fun t => (t.withLink t.link.dropFields).remoteIf (setupDiffers s.w new))

/-! ## Host requests once taken -/

/-- Data of SET_FIELD and GET_FIELD: the id and a value (12 R216). -/
def fieldData (id : Nat) (v : Int) : List Byte := BitVec.ofNat 8 id :: signedBytes 8 v

/-- SET_FIELD (08 R149). -/
def State.takeSetField (tag field : Byte) (value : BitVec 64) (s : State) : State :=
  match (catalogue field.toNat).bind (fun f => storedValue f.kind value.toInt) with
  | none => s.answer 0x20 tag .range []
  | some v =>
    (s.hostPlace (s.w.put field.toNat v)).answer 0x20 tag (if v = value.toInt then .ok else .clamped)
      (fieldData field.toNat v)

/-- GET_FIELD (08 R150). -/
def State.takeGetField (tag field : Byte) (s : State) : State :=
  if (catalogue field.toNat).isSome then s.answer 0x21 tag .ok (fieldData field.toNat (s.w.val field.toNat))
  else s.answer 0x21 tag .range []

/-- The stored values of a stage's eight offered values; none where an enumerated one is not an index (08 R151). -/
def stageStored : Nat → List Int → Option (List Int)
  | _, [] => some []
  | k, v :: rest =>
    match storedValue (stageField k).kind v, stageStored (k + 1) rest with
    | some u, some us => some (u :: us)
    | _, _ => none

/-- The values of a stage placed in a setup, from field k on. -/
def putStage (s : Nat) : Nat → List Int → Setup → Setup
  | _, [], w => w
  | k, v :: rest, w => putStage s (k + 1) rest (w.put (stageId s k) v)

/-- SET_STAGE (08 R151). -/
def State.takeSetStage (tag stage : Byte) (values : List Int) (s : State) : State :=
  if 7 < stage.toNat then s.answer 0x22 tag .range []
  else
    match stageStored 0 values with
    | none => s.answer 0x22 tag .range []
    | some vs =>
      (s.hostPlace (putStage stage.toNat 0 vs s.w)).answer 0x22 tag (if vs = values then .ok else .clamped)
        (stage :: vs.flatMap (signedBytes 8))

/-- GET_SETUP (08 R150): selector WORKING 0, SHADOW 1. -/
def State.takeGetSetup (tag selector : Byte) (s : State) : State :=
  if selector = 0 then s.answer 0x23 tag .ok (setupBytes s.setup.working)
  else if selector = 1 then s.answer 0x23 tag .ok (setupBytes s.setup.shadow)
  else s.answer 0x23 tag .range []

/-- LOAD_SETUP (08 R152). -/
def State.takeLoadSetup (tag : Byte) (values : List Int) (s : State) : State :=
  match recordSetup values with
  | none => s.answer 0x24 tag .range []
  | some (w, n) => (s.hostPlaceWhole w).answer 0x24 tag (if n = 0 then .ok else .clamped) [BitVec.ofNat 8 n]

/-- UNDO (08 R161). -/
def State.takeUndo (tag : Byte) (s : State) : State := (s.hostPlaceWhole s.setup.shadow).answer 0x27 tag .ok []

/-- DEFAULT (08 R162). -/
def State.takeDefault (tag : Byte) (s : State) : State := (s.hostPlaceWhole Setup.default).answer 0x28 tag .ok []

/-! ## Panel requests (08 R153) -/

/-- A panel change of one field to a value: placed with its class, and reported where it changes, with the rest of the
event's reports (`told`) behind the FIELD report (07 R132, R135, 08 R153). -/
def State.panelChange (id : Nat) (v : Int) (told : State → State) (s : State) : State :=
  if s.w.val id = v then told s
  else s.placeSetup (s.w.put id v) (fun t => told (t.withLink (t.link.offerField id v)))

/-- The value a panel TOGGLE gives a two-valued field (07 R135). -/
def toggledValue (v : Int) : Int := if v = 0 then 1 else 0

/-- A panel STEP or ADJUST of a field by a delta (08 R153). -/
def State.panelStep (id : Nat) (delta : Int) (told : State → State) (s : State) : State :=
  match catalogue id with
  | none => told s
  | some f => s.panelChange id (steppedValue f.kind (s.w.val id) delta) told

/-- A whole setup placed by the panel: the SETUP report removes every waiting FIELD report, and the rest of the event's
reports (`told`) follow it (07 R132, R134, 10 R195). -/
def State.panelPlaceWhole (new : Setup) (kind : SetupKind) (slot : Option Nat) (told : State → State) (s : State) : State :=
  s.placeWhole new (fun t => told (t.withLink (t.link.offerSetup kind slot)))

end Sys2Proof.Machine
end

