-- ==== Sys2Proof/Machine/Run.lean ====
section
/-!
DEFINITION. RUN, SINGLE and STOP (03 R42 to R44) and FORCE (02 R33) as host commands.
-/

namespace Sys2Proof.Machine

/-- The run state changed in flight: RUN taken in SINGLE, or SINGLE taken in RUN (03 R42, R43). -/
def State.changeRun (r : RunState) (s : State) : State := s.withAcq { s.acq with run := r }

/-- RUN or SINGLE once taken: in STOP a start with its checks, else the run state asked for (03 R42, R43), with auto-remote
where the run state changes (07 R138). -/
def State.takeStart (type : Byte) (r : RunState) (tag : Byte) (s : State) : State :=
  if s.acq.run = .stop then
    match s.startCheck with
    | none => ((s.start r).remoteIf true).answer type tag .ok []
    | some code => s.answer type tag code []
  else ((s.changeRun r).remoteIf (decide (s.acq.run ≠ r))).answer type tag .ok []

/-- RUN once taken (03 R42). -/
def State.takeRun (tag : Byte) (s : State) : State := s.takeStart 0x30 .run tag

/-- SINGLE once taken (03 R43). -/
def State.takeSingle (tag : Byte) (s : State) : State := s.takeStart 0x31 .single tag

/-- STOP once taken (03 R44). -/
def State.takeStop (tag : Byte) (s : State) : State :=
  if s.acq.run = .stop then s.answer 0x32 tag .ok []
  else (s.stopAcquisition.remoteIf true).answer 0x32 tag .ok []

/-- FORCE once taken (02 R33). -/
def State.takeForceCommand (tag : Byte) (s : State) : State :=
  s.takeForce.answer 0x33 tag (if s.forceAccepted then .ok else .state) []

/-- RUN (03 R42). -/
def execRun (tag : Byte) (s : State) : Host.Outcome State Fault Refusal :=
  command (.run tag) (State.holdRecalling (.run tag) (State.takeRun tag)) s

/-- SINGLE (03 R43). -/
def execSingle (tag : Byte) (s : State) : Host.Outcome State Fault Refusal :=
  command (.single tag) (State.holdRecalling (.single tag) (State.takeSingle tag)) s

/-- STOP (03 R44). -/
def execStop (tag : Byte) (s : State) : Host.Outcome State Fault Refusal :=
  command (.stop tag) (State.holdRecalling (.stop tag) (State.takeStop tag)) s

/-- FORCE (02 R33). -/
def execForce (tag : Byte) (s : State) : Host.Outcome State Fault Refusal :=
  command (.force tag) (State.takeForceCommand tag) s

end Sys2Proof.Machine
end

