-- ==== Sys2Proof/Machine/SetupCommands.lean ====
section
/-!
DEFINITION. The host commands of the Setup Controller (08 R149 to R152, R161, R162). Changes are held while power-on
recall is in progress (08 R163); GET_FIELD and GET_SETUP change nothing and are not held.
-/

namespace Sys2Proof.Machine

/-- SET_FIELD (08 R149). -/
def execSetField (tag field : Byte) (value : BitVec 64) (s : State) : Host.Outcome State Fault Refusal :=
  command (.setField tag field value)
    (State.holdRecalling (.setField tag field value) (State.takeSetField tag field value)) s

/-- GET_FIELD (08 R150). -/
def execGetField (tag field : Byte) (s : State) : Host.Outcome State Fault Refusal :=
  command (.getField tag field) (State.takeGetField tag field) s

/-- The eight offered values of a SET_STAGE, as signed integers. -/
def stageValues (src cond level hyst pol limit onmatch timeout : BitVec 64) : List Int :=
  [src.toInt, cond.toInt, level.toInt, hyst.toInt, pol.toInt, limit.toInt, onmatch.toInt, timeout.toInt]

/-- SET_STAGE (08 R151). -/
def execSetStage (tag stage : Byte) (src cond level hyst pol limit onmatch timeout : BitVec 64) (s : State) :
    Host.Outcome State Fault Refusal :=
  command (.setStage tag stage src cond level hyst pol limit onmatch timeout)
    (State.holdRecalling (.setStage tag stage src cond level hyst pol limit onmatch timeout)
      (State.takeSetStage tag stage (stageValues src cond level hyst pol limit onmatch timeout))) s

/-- GET_SETUP (08 R150). -/
def execGetSetup (tag selector : Byte) (s : State) : Host.Outcome State Fault Refusal :=
  command (.getSetup tag selector) (State.takeGetSetup tag selector) s

/-- LOAD_SETUP (08 R152). -/
def execLoadSetup (tag : Byte) (values : List (BitVec 64)) (s : State) : Host.Outcome State Fault Refusal :=
  command (.loadSetup tag values)
    (State.holdRecalling (.loadSetup tag values) (State.takeLoadSetup tag (values.map BitVec.toInt))) s

/-- UNDO (08 R161). -/
def execUndo (tag : Byte) (s : State) : Host.Outcome State Fault Refusal :=
  command (.undo tag) (State.holdRecalling (.undo tag) (State.takeUndo tag)) s

/-- DEFAULT (08 R162). -/
def execDefault (tag : Byte) (s : State) : Host.Outcome State Fault Refusal :=
  command (.defaultSetup tag) (State.holdRecalling (.defaultSetup tag) (State.takeDefault tag)) s

end Sys2Proof.Machine
end

