-- ==== Sys2Proof/Machine/Store.lean ====
section
/-!
DEFINITION. The Setup Store (chapter 9): its host commands, the phases of a write, the limit timer, the recall of a slot
by the host or the panel, and power-on recall.
-/

namespace Sys2Proof.Machine

/-! ## Requests (09 R168, R170, R171, R174) -/

/-- A request refused BUSY by a write in flight sets the write's collided mark (09 R173). -/
def State.collide (s : State) : State :=
  s.withStore { s.store with write := s.store.write.map (fun w => { w with collided := true }) }

/-- A character a name may hold (09 R164, R168). -/
def nameChar (b : Byte) : Bool := decide (0x20 ≤ b.toNat ∧ b.toNat ≤ 0x7E)

/-- What acceptance does to the slot or the header: the slot becomes WRITING and loses its name; the header's status becomes
WRITING and keeps its power-on slot (09 R168, R170, R171). -/
def Store.markWriting (t : Store) (op : StoreOp) (slot : Nat) : Store :=
  match op with
  | .setPoweron => { t with header := ⟨t.header.slot, .writing⟩ }
  | _ => t.setSlot slot ⟨.writing, []⟩

/-- A write accepted: its record filled, the limit timer started, the first phase begun (09 R168, R170, R171, R172). -/
def State.beginWrite (op : StoreOp) (slot : Nat) (snapshot : Setup) (name : List Byte) (tag : Byte) (s : State) : State :=
  s.withStore { s.store.markWriting op slot with
    activity := .writing,
    write := some ⟨op, slot, snapshot, name, tag, .erase, s.after (millis 60), false⟩ }

/-- Whether a write is in flight. -/
def State.writing (s : State) : Bool := decide (s.store.activity = .writing)

/-- SAVE once taken (09 R168). -/
def State.takeSave (tag slot : Byte) (name : List Byte) (s : State) : State :=
  if slot.toNat < 1 ∨ 16 < slot.toNat then s.answer 0x25 tag .range []
  else if !name.all nameChar then s.answer 0x25 tag .range []
  else if s.writing then s.collide.answer 0x25 tag .busy []
  else (s.beginWrite .save slot.toNat s.w name tag).answer 0x25 tag .ok [slot]

/-- ERASE once taken (09 R170). -/
def State.takeErase (tag slot : Byte) (s : State) : State :=
  if slot.toNat < 1 ∨ 16 < slot.toNat then s.answer 0x29 tag .range []
  else if s.writing then s.collide.answer 0x29 tag .busy []
  else (s.beginWrite .erase slot.toNat Setup.default [] tag).answer 0x29 tag .ok [slot]

/-- SET_POWERON once taken (09 R171). -/
def State.takeSetPoweron (tag slot : Byte) (s : State) : State :=
  if 16 < slot.toNat then s.answer 0x2A tag .range []
  else if s.writing then s.collide.answer 0x2A tag .busy []
  else (s.beginWrite .setPoweron slot.toNat Setup.default [] tag).answer 0x2A tag .ok [slot]

/-- The read of a VALID slot begins (09 R176). -/
def State.beginRead (slot : Nat) (panel : Bool) (s : State) : State :=
  s.withStore { s.store with activity := .reading, reading := some ⟨slot, panel⟩ }

/-- Host RECALL once taken (09 R175). While a VALID slot is read the decoder goes on waiting on it. A slot is WRITING only
while a write is in flight, which line 2 of the rule has refused. -/
def State.takeRecall (tag slot : Byte) (s : State) : State :=
  if 16 < slot.toNat then s.answer 0x26 tag .range []
  else if s.writing then s.collide.answer 0x26 tag .busy []
  else if slot.toNat = 0 then (s.hostPlaceWhole Setup.default).answer 0x26 tag .ok [0]
  else
    match (s.store.slot slot.toNat).state with
    | .empty => s.answer 0x26 tag .empty []
    | .damaged => s.answer 0x26 tag .damaged []
    | .writing => s.answer 0x26 tag .busy []
    | .valid => (s.beginRead slot.toNat false).hold (.recall tag slot)

/-- The name field of a SLOT_INFO answer: the name for VALID, zero otherwise (12 R216). -/
def slotNameBytes (x : Slot) : List Byte :=
  if x.state = .valid then x.name else List.replicate 16 0

/-- The write fields of a SLOT_INFO answer (12 R216). -/
def writeBytes : Option Write → List Byte
  | none => [0xFF, 0, 0, 0]
  | some w => [BitVec.ofNat 8 w.op.code, BitVec.ofNat 8 w.slot, BitVec.ofNat 8 w.phase.code, flagByte w.collided]

/-- The SLOT_INFO answer of 296 bytes (09 R181, 12 R216). -/
def Store.infoBytes (t : Store) : List Byte :=
  (List.range 17).flatMap (fun n => BitVec.ofNat 8 (t.slot n).state.code :: slotNameBytes (t.slot n))
    ++ [BitVec.ofNat 8 t.header.slot, BitVec.ofNat 8 t.header.status.code, BitVec.ofNat 8 t.activity.code]
    ++ writeBytes t.write

/-- SLOT_INFO once taken (09 R181). -/
def State.takeSlotInfo (tag : Byte) (s : State) : State := s.answer 0x2B tag .ok s.store.infoBytes

/-! ## Held requests (09 R167, R180) -/

/-- A held host request is taken under the state its hold has left. Only requests that an owner can hold are listed. -/
def State.takeHeld (i : Instr) (s : State) : State :=
  match i with
  | .setField tag f v => s.takeSetField tag f v
  | .setStage tag st a b c d e f g h =>
    s.takeSetStage tag st (stageValues a b c d e f g h)
  | .loadSetup tag vs => s.takeLoadSetup tag (vs.map BitVec.toInt)
  | .undo tag => s.takeUndo tag
  | .defaultSetup tag => s.takeDefault tag
  | .run tag => s.takeRun tag
  | .single tag => s.takeSingle tag
  | .stop tag => s.takeStop tag
  | .save tag slot name => s.takeSave tag slot name
  | .erase tag slot => s.takeErase tag slot
  | .setPoweron tag slot => s.takeSetPoweron tag slot
  | .recall tag slot => s.takeRecall tag slot
  | .slotInfo tag => s.takeSlotInfo tag
  | _ => s

/-- The host request that the decoder waits on is taken, unless a deferred RESET is due, which discards it (09 R177). It is
a later event than the one that ended its hold: an idle lane first takes what that one queued, the POWERUP report among it
(10 R197). -/
def State.resumeHost (s : State) : State :=
  if s.resetDue then s
  else
    match s.link.waiting with
    | none => s
    | some i => (s.startIdle.withLink { s.startIdle.link with waiting := none }).takeHeld i

/-! ## Panel events whose action has been decided (07 R131, R132) -/

/-- The PANEL report of an event, where its entry's mode or a refusal calls for one (07 R132). -/
def State.concludeEvent (e : PanelEvent) (mode : ActMode) (action : Action) (outcome : PanelOutcome) (code : ResultCode)
    (s : State) : State :=
  if mode = .report ∨ mode = .both ∨ (mode = .local ∧ outcome = .refused) then
    s.report (.panel e action outcome code)
  else s

/-- The owner has answered an offered RECALL: the event is completed and later events may be handled (07 R131). -/
def State.concludeOffered (o : Offered) (outcome : PanelOutcome) (code : ResultCode) (s : State) : State :=
  (s.withPanel { s.panel with offered := none }).concludeEvent o.event o.mode o.action outcome code

/-- A panel RECALL decided under the activity and the slot's state it finds (07 R134, 09 R174, R175). -/
def State.decidePanelRecall (o : Offered) (s : State) : State :=
  if s.writing then s.collide.concludeOffered o .refused .busy
  else if o.slot = 0 then s.panelPlaceWhole Setup.default .recall (some 0) (State.concludeOffered o .taken .ok)
  else
    match (s.store.slot o.slot).state with
    | .empty => s.concludeOffered o .refused .empty
    | .damaged => s.concludeOffered o .refused .damaged
    | .writing => s.concludeOffered o .refused .busy
    | .valid => s.beginRead o.slot true

/-- A panel RECALL offered to the Setup Store: held in READING (09 R167), else decided. -/
def State.offerRecall (o : Offered) (s : State) : State :=
  let s := s.withPanel { s.panel with offered := some o }
  if s.storeHolds then s.withStore { s.store with heldPanel := true } else s.decidePanelRecall o

/-- A panel RECALL held during a read is taken, unless a deferred RESET is due, which discards it (09 R177, R182). DESIGN
CHOICE (log 39): it was offered under the access state of its event (07 R137), so a PANEL_MODE LOCKOUT or REMOTE taken since
does not withhold it. -/
def State.resumePanel (s : State) : State :=
  if s.resetDue || !s.store.heldPanel then s
  else
    match s.panel.offered with
    | none => s.withStore { s.store with heldPanel := false }
    | some o => (s.withStore { s.store with heldPanel := false }).decidePanelRecall o

/-! ## Classification (09 R164, 12 R219) -/

/-- The check of the flash as it is stored. -/
def checkBytes (bs : List Byte) : List Byte := beBytes 4 (crc32 bs).toNat

/-- State of a slot whose record reads as 836 bytes (09 R164, R179). -/
def classifySlot (bs : List Byte) : SlotState :=
  if bs.all (fun b => b == 0xFF) then .empty
  else if checkBytes (bs.take 832) = bs.drop 832 ∧ ((bs.drop 816).take 16).all nameChar then .valid
  else .damaged

/-- The slot that a record of 836 bytes classifies as, with its name where it is VALID (09 R165, R179). -/
def slotOfRecord (bs : List Byte) : Slot :=
  ⟨classifySlot bs, if classifySlot bs = .valid then (bs.drop 816).take 16 else []⟩

/-- The header record that 5 bytes classify as (09 R164, R166). -/
def classifyHeader (bs : List Byte) : Header :=
  if bs.all (fun b => b == 0xFF) then ⟨0, .erased⟩
  else if checkBytes (bs.take 1) = bs.drop 1 ∧ (bs.headD 0).toNat ≤ 16 then ⟨(bs.headD 0).toNat, .good⟩
  else ⟨0, .bad⟩

/-- The 836 bytes of slot n's sector. -/
def slotBytes (f : Table Byte) (n : Nat) : List Byte := readSector f n 836

/-- The 5 bytes of the header sector. -/
def headerBytes (f : Table Byte) : List Byte := readSector f 0 5

/-- The setup a good record places, and how many values are clamped or snapped; none where the Setup Controller refuses an
enumerated value (08 R160). -/
def recordPlacement (bs : List Byte) : Option (Setup × Nat) := recordSetup (recordValues 102 (bs.take 816))

/-- What the read of a slot finds: the setup to place, or none where the record is not good or is refused (09 R176). -/
def readPlacement (f : Table Byte) (n : Nat) : Option (Setup × Nat) :=
  if classifySlot (slotBytes f n) = .valid then recordPlacement (slotBytes f n) else none

/-! ## A write's phases (09 R169 to R173) -/

/-- Sector a write works on. -/
def Write.sector (w : Write) : Nat :=
  match w.op with
  | .setPoweron => 0
  | _ => w.slot

/-- The bytes a write programs; none for an ERASE (12 R219). -/
def Write.bytes (w : Write) : List Byte :=
  match w.op with
  | .save => (setupBytes w.snapshot ++ w.name) ++ checkBytes (setupBytes w.snapshot ++ w.name)
  | .setPoweron => [BitVec.ofNat 8 w.slot] ++ checkBytes [BitVec.ofNat 8 w.slot]
  | .erase => []

/-- Whether VERIFY finds what the write left: the bytes programmed, or 836 erased bytes for an ERASE (09 R169 to R171). -/
def Write.verified (w : Write) (f : Table Byte) : Bool :=
  match w.op with
  | .erase => (slotBytes f w.slot).all (fun b => b == 0xFF)
  | _ => decide (readSector f w.sector w.bytes.length = w.bytes)

/-- Phase after ERASE (09 R169, R170). -/
def StoreOp.afterErase : StoreOp → StorePhase
  | .erase => .verify
  | _ => .program

/-- The slot a completed SAVE or ERASE leaves (09 R169, R170, R172). -/
def Write.finalSlot (w : Write) (ok : Bool) : Slot :=
  if ok then
    match w.op with
    | .save => ⟨.valid, w.name⟩
    | _ => ⟨.empty, []⟩
  else ⟨.damaged, []⟩

/-- The header a completed SET_POWERON leaves (09 R171, R172). -/
def Write.finalHeader (w : Write) (ok : Bool) : Header := if ok then ⟨w.slot, .good⟩ else ⟨0, .bad⟩

/-- The completion of a write: the slot or header in its final state, the STORE report, the activity IDLE and the record
cleared (09 R169, R173). In WRITING nothing is held (09 R167), so no request is taken here. -/
def State.completeWrite (w : Write) (ok : Bool) (s : State) : State :=
  match w.op with
  | .setPoweron =>
    (s.withStore { s.store with header := w.finalHeader ok, activity := .idle, write := none }).report
      (.storeHeader w.slot w.tag ok (w.finalHeader ok).status w.collided)
  | op =>
    (s.withStore { s.store.setSlot w.slot (w.finalSlot ok) with activity := .idle, write := none }).report
      (.storeSlot op w.slot w.tag ok (w.finalSlot ok).state w.collided)

/-- The write in flight, in a phase. -/
def State.writeIn (s : State) (phase : StorePhase) : Option Write :=
  match s.store.write with
  | some w => if s.store.activity = .writing ∧ w.phase = phase then some w else none
  | none => none

/-- The next phase of a write begins. -/
def State.setPhase (w : Write) (phase : StorePhase) (s : State) : State :=
  s.withStore { s.store with write := some { w with phase := phase } }

/-- The flash ends the ERASE phase (09 R169). -/
def State.endErase (upset : Upset) (s : State) : State :=
  match s.writeIn .erase with
  | none => s
  | some w => ((s.withFlash (eraseSector s.flash w.sector)).upsetFlash upset).setPhase w w.op.afterErase

/-- The flash ends the PROGRAM phase (09 R169). -/
def State.endProgram (upset : Upset) (s : State) : State :=
  match s.writeIn .program with
  | none => s
  | some w => ((s.withFlash (programSector s.flash w.sector w.bytes)).upsetFlash upset).setPhase w .verify

/-- The flash ends the VERIFY phase (09 R169). -/
def State.endVerify (upset : Upset) (s : State) : State :=
  match s.writeIn .verify with
  | none => s
  | some w => (s.upsetFlash upset).completeWrite w (w.verified (s.upsetFlash upset).flash)

/-- The limit timer expires with a phase in progress (09 R172). -/
def State.endLimit (upset : Upset) (s : State) : State :=
  match s.store.write with
  | some w =>
    if s.writing && s.due w.limit then ((s.upsetFlash upset).completeWrite w false).arrive w.limit else s
  | none => s

/-! ## The end of a read (09 R176) -/

/-- The read of a slot has ended: the activity is IDLE. -/
def State.endRead (s : State) : State := s.withStore { s.store with activity := .idle, reading := none }

/-- A slot found bad (09 R176). -/
def State.damage (slot : Nat) (s : State) : State := s.withStore (s.store.setSlot slot ⟨.damaged, []⟩)

/-- A host RECALL whose read has ended: answered, and its place in the queue filled (09 R176). DESIGN CHOICE (log 48): a slot that
stays VALID keeps the name it has in the slot state table, also where the record read holds another. -/
def State.endHostRecall (tag : Byte) (slot : Nat) (s : State) : State :=
  let t := s.withLink { s.link with waiting := none }
  match readPlacement s.flash slot with
  | some (w, n) => (t.hostPlaceWhole w).answer 0x26 tag (if n = 0 then .ok else .clamped) [BitVec.ofNat 8 n]
  | none => (t.damage slot).answer 0x26 tag .damaged []

/-- A panel RECALL whose read has ended (09 R176). DESIGN CHOICE (log 39): it places its setup also where a PANEL_MODE LOCKOUT
or REMOTE was taken during the read. DESIGN CHOICE (log 48): a slot that stays VALID keeps the name it has in the table. -/
def State.endPanelRecall (o : Offered) (slot : Nat) (s : State) : State :=
  match readPlacement s.flash slot with
  | some (w, _) => s.panelPlaceWhole w .recall (some slot) (State.concludeOffered o .taken .ok)
  | none => (s.damage slot).concludeOffered o .refused .damaged

/-- The tag of the host RECALL that the decoder waits on. -/
def Link.recallTag (l : Link) : Option Byte :=
  match l.waiting with
  | some (.recall tag _) => some tag
  | _ => none

/-- The end of the read in progress: its recall is decided, and then what was held behind it is taken (09 R167, R176). -/
def State.endRecall (upset : Upset) (s : State) : State :=
  match s.store.activity, s.store.reading with
  | .reading, some r =>
    let t := (s.upsetFlash upset).endRead
    if r.panel then
      match s.panel.offered with
      | some o => (t.endPanelRecall o r.slot).resumeHost
      | none => t.resumeHost
    else
      match s.link.recallTag with
      | some tag => (t.endHostRecall tag r.slot).resumePanel
      | none => t.resumePanel
  | _, _ => s

/-! ## Power-on recall (09 R179, R180) -/

/-- The header record and the slot state table as the flash classifies (09 R179 steps 1 and 2). -/
def State.classify (s : State) : State :=
  s.withStore { s.store with
    header := classifyHeader (headerBytes s.flash),
    slots := s.store.slots.setAll slotDefault
      ((List.range' 1 16).map (fun n => (n, slotOfRecord (slotBytes s.flash n)))) }

/-- Number of slots 1..16 that are DAMAGED (09 R180). -/
def Store.damagedCount (t : Store) : Nat :=
  ((List.range' 1 16).filter (fun n => decide ((t.slot n).state = .damaged))).length

/-- The placement of power-on recall: the setup placed with its classes, no report of its own, and the shadow made equal
(08 R163, 09 R180). -/
def State.placeStartup (w : Setup) (s : State) : State :=
  let t := s.placeSetup w (fun t => t)
  t.withSetup { t.setup with shadow := t.setup.working }

/-- The end of power-on recall with what it placed: IDLE and the POWERUP report (09 R180). -/
def State.finishStartup (placed : Nat) (fallback : Bool) (s : State) : State :=
  let t := s.withStore { s.store with activity := .idle }
  t.report (.powerup t.store.resetKind t.store.header.slot placed fallback t.store.header.status t.store.damagedCount)

/-- Step 3 of 09 R179, with the placement of 08 R160 and R163. -/
def State.placeChosen (s : State) : State :=
  let n := s.store.header.slot
  if s.store.header.status ≠ .good then
    (s.placeStartup Setup.default).finishStartup 0 (decide (s.store.header.status ≠ .erased))
  else if n = 0 then (s.placeStartup Setup.default).finishStartup 0 false
  else if (s.store.slot n).state = .valid then
    match recordPlacement (slotBytes s.flash n) with
    | some (w, _) => (s.placeStartup w).finishStartup n false
    | none => ((s.damage n).placeStartup Setup.default).finishStartup 0 true
  else (s.placeStartup Setup.default).finishStartup 0 true

/-- The end of power-on recall: the held request is taken once the POWERUP report is queued, and on an idle lane sent
(09 R180, 10 R197). -/
def State.endStartup (upset : Upset) (s : State) : State :=
  if s.recalling then (s.upsetFlash upset).classify.placeChosen.resumeHost else s

/-! ## The rows -/

/-- SAVE (09 R168). -/
def execSave (tag slot : Byte) (name : List Byte) (s : State) : Host.Outcome State Fault Refusal :=
  command (.save tag slot name) (State.holdStore (.save tag slot name) (State.takeSave tag slot name)) s

/-- RECALL (09 R175). -/
def execRecall (tag slot : Byte) (s : State) : Host.Outcome State Fault Refusal :=
  command (.recall tag slot) (State.holdStore (.recall tag slot) (State.takeRecall tag slot)) s

/-- ERASE (09 R170). -/
def execErase (tag slot : Byte) (s : State) : Host.Outcome State Fault Refusal :=
  command (.erase tag slot) (State.holdStore (.erase tag slot) (State.takeErase tag slot)) s

/-- SET_POWERON (09 R171). -/
def execSetPoweron (tag slot : Byte) (s : State) : Host.Outcome State Fault Refusal :=
  command (.setPoweron tag slot) (State.holdStore (.setPoweron tag slot) (State.takeSetPoweron tag slot)) s

/-- SLOT_INFO (09 R181). -/
def execSlotInfo (tag : Byte) (s : State) : Host.Outcome State Fault Refusal :=
  command (.slotInfo tag) (State.holdStore (.slotInfo tag) (State.takeSlotInfo tag)) s

/-- FLASH_ERASE_END (09 R169). -/
def execFlashEraseEnd (upset : Upset) (s : State) : Host.Outcome State Fault Refusal :=
  guarded (.flashEraseEnd upset) (State.endErase upset) s

/-- FLASH_PROGRAM_END (09 R169). -/
def execFlashProgramEnd (upset : Upset) (s : State) : Host.Outcome State Fault Refusal :=
  guarded (.flashProgramEnd upset) (State.endProgram upset) s

/-- FLASH_VERIFY_END (09 R169). -/
def execFlashVerifyEnd (upset : Upset) (s : State) : Host.Outcome State Fault Refusal :=
  guarded (.flashVerifyEnd upset) (State.endVerify upset) s

/-- LIMIT_TIMER_EXPIRY (09 R172). -/
def execLimitTimerExpiry (upset : Upset) (s : State) : Host.Outcome State Fault Refusal :=
  guarded (.limitTimerExpiry upset) (State.endLimit upset) s

/-- RECALL_READ_END (09 R176). -/
def execRecallReadEnd (upset : Upset) (s : State) : Host.Outcome State Fault Refusal :=
  guarded (.recallReadEnd upset) (State.endRecall upset) s

/-- POWER_ON_RECALL_END (09 R180). -/
def execPowerOnRecallEnd (upset : Upset) (s : State) : Host.Outcome State Fault Refusal :=
  guarded (.powerOnRecallEnd upset) (State.endStartup upset) s

end Sys2Proof.Machine
end

