-- ==== Sys2Proof/Machine/Panel.lean ====
section
/-!
DEFINITION. The Panel Scanner (chapter 7): the scan of the keys, the samplings and windows of the encoders, the handling of
the events they produce, and the panel's timers.
-/

namespace Sys2Proof.Machine

/-! ## Keys (07 R122, R123) -/

/-- One scan of a key: its next state, and the event a debounced change produces (07 R122). -/
def scanKey (k : Key) (raw : Bool) : Key × Option EventKind :=
  if raw = k.pressed then ({ k with count := 0 }, none)
  else if k.count < 3 then ({ k with count := k.count + 1 }, none)
  else ({ k with pressed := raw, count := 0 }, some (if raw then .press else .release))

/-- The keys after a scan. -/
def Panel.scanKeys (p : Panel) (raw : BitVec 96) : Table Key :=
  p.keys.setAll keyDefault ((List.range 96).map (fun k => (k, (scanKey (p.key k) (raw.getLsbD k)).1)))

/-- The events of a scan, in ascending key code (07 R123). -/
def Panel.scanEvents (p : Panel) (raw : BitVec 96) : List PanelEvent :=
  (List.range 96).filterMap (fun k => (scanKey (p.key k) (raw.getLsbD k)).2.map (fun e => ⟨e, k, 0⟩))

/-- KEY_SCAN (07 R122): scan m is taken at tick 2 000 000 x m. DESIGN CHOICE (log 47): its events join the queue behind those that
wait, also behind all TURN events of a window that ends at the same tick (07 R123). -/
def execKeyScan (pressed : BitVec 96) (s : State) : Host.Outcome State Fault Refusal :=
  if s.due s.panel.nextScan then
    .next ((s.withPanel { s.panel with
      keys := s.panel.scanKeys pressed, events := s.panel.events ++ s.panel.scanEvents pressed,
      nextScan := s.panel.nextScan + 2000000 }).arrive s.panel.nextScan)
  else .next s

/-! ## Encoders (07 R126 to R128) -/

/-- Place of a phase pair (A, B) in the forward cycle 00, 10, 11, 01 (07 R126). -/
def phasePlace (p : Bool × Bool) : Nat :=
  match p with
  | (false, false) => 0
  | (true, false) => 1
  | (true, true) => 2
  | (false, true) => 3

/-- A valid transition of sign `t` counted: a reversal sets the partial count to 0 first, and the fourth in one direction
makes a detent, saturating at -127 and +127 (07 R126, R127). -/
def countTransition (e : Encoder) (t : Int) : Encoder :=
  let base := if e.trans * t < 0 then 0 else e.trans
  if base + t = 4 then { e with trans := 0, detents := clampInt (-127) 127 (e.detents + 1) }
  else if base + t = -4 then { e with trans := 0, detents := clampInt (-127) 127 (e.detents - 1) }
  else { e with trans := base + t }

/-- One sampling of an encoder (07 R126). -/
def sampleEncoder (e : Encoder) (pair : Bool × Bool) : Encoder :=
  match e.ref with
  | none => { e with ref := some pair }
  | some old =>
    let e := { e with ref := some pair }
    match (phasePlace pair + 4 - phasePlace old) % 4 with
    | 0 => e
    | 1 => countTransition e 1
    | 3 => countTransition e (-1)
    | _ => { e with trans := 0 }

/-- The encoders after a sampling. -/
def Panel.sampleEncoders (p : Panel) (a b : BitVec 8) : Table Encoder :=
  p.encs.setAll encDefault ((List.range 8).map (fun e => (e, sampleEncoder (p.enc e) (a.getLsbD e, b.getLsbD e))))

/-- ENCODER_SAMPLING (07 R126): at ticks 100 000 x m. -/
def execEncoderSampling (phaseA phaseB : BitVec 8) (s : State) : Host.Outcome State Fault Refusal :=
  if s.due s.panel.nextEnc then
    .next (s.withPanel { s.panel with
      encs := s.panel.sampleEncoders phaseA phaseB, nextEnc := s.panel.nextEnc + 100000 })
  else .next s

/-- The TURN value of a window detent count (07 R128). -/
def accelerated (threshold factor : Nat) (c : Int) : Int :=
  if threshold = 0 ∨ c.natAbs < threshold then c else clampInt (-127) 127 (c * factor)

/-- The TURN events of a window's end, in ascending encoder number (07 R127). -/
def Panel.turnEvents (p : Panel) : List PanelEvent :=
  (List.range 8).filterMap (fun e =>
    if (p.enc e).detents = 0 then none
    else some ⟨.turn, 96 + e, accelerated (p.action (96 + e)).threshold (p.action (96 + e)).factor (p.enc e).detents⟩)

/-- The window detent counts set to 0; the partial counts are kept (07 R127). -/
def Panel.clearDetents (p : Panel) : Table Encoder :=
  p.encs.setAll encDefault ((List.range 8).map (fun e => (e, { p.enc e with detents := 0 })))

/-- WINDOW_END (07 R127): window j ends at tick 20 000 000 x j. DESIGN CHOICE (log 47): its TURN events join the queue behind
those that wait, so that they are handled all before or all after the events of the scan of the same tick (07 R123). -/
def execWindowEnd (s : State) : Host.Outcome State Fault Refusal :=
  if s.due s.panel.nextWindow then
    .next ((s.withPanel { s.panel with
      encs := s.panel.clearDetents, events := s.panel.events ++ s.panel.turnEvents,
      nextWindow := s.panel.nextWindow + 20000000 }).arrive s.panel.nextWindow)
  else .next s

/-- REPEAT_TIMER_EXPIRY (07 R124): the entry as it stands decides whether a REPEAT is produced. DESIGN CHOICE (log 41): a
RELEASE of the repeat key that is produced and still waits unhandled (07 R131) has not yet stopped the repeat, so that the
REPEAT joins the events behind it. -/
def execRepeatTimerExpiry (s : State) : Host.Outcome State Fault Refusal :=
  match s.panel.repeatKey with
  | none => .next s
  | some (k, e) =>
    if s.due e then
      if (s.panel.action k).mode ≠ .off ∧ (s.panel.action k).rep then
        .next ((s.withPanel { s.panel with
          repeatKey := some (k, s.after (millis 50)), events := s.panel.events ++ [⟨.repeat_, k, 0⟩] }).arrive e)
      else .next (s.withPanel { s.panel with repeatKey := none })
    else .next s

/-! ## Local actions (07 R131 to R136) -/

/-- The local action that an event of an entry's action calls for; NONE where it calls for none (07 R131). A TOGGLE of a
field that is not two-valued acts as NONE (07 R135, log 19). -/
def calledAction (kind : EventKind) (a : ActionEntry) : Action :=
  match kind, a.action with
  | .press, .adjust => .none
  | .press, .toggle => if (a.field.map twoValued).getD false then .toggle else .none
  | .press, x => x
  | .repeat_, .step => .step
  | .turn, .adjust => .adjust
  | _, _ => .none

/-- A panel RUN_STOP in STOP, or a panel SINGLE: a start with its checks (03 R46). -/
def State.panelStart (r : RunState) (e : PanelEvent) (a : ActionEntry) (s : State) : State :=
  match s.startCheck with
  | none => ((s.start r).reportRun .panel .ok).concludeEvent e a.mode a.action .taken .ok
  | some code => s.concludeEvent e a.mode a.action .refused code

/-- A local action that the access state lets through, taken by its owner (07 R133 to R135, 03 R46). -/
def State.takeLocal (act : Action) (e : PanelEvent) (a : ActionEntry) (s : State) : State :=
  let taken := fun (t : State) => t.concludeEvent e a.mode a.action .taken .ok
  let nothing := s.concludeEvent e a.mode a.action .none .ok
  match act with
  | .none => nothing
  | .localReturn => nothing
  | .runStop =>
    if s.acq.run = .stop then s.panelStart .run e a else taken (s.stopAcquisition.reportRun .panel .ok)
  | .single =>
    match s.acq.run with
    | .stop => s.panelStart .single e a
    | .run => taken ((s.changeRun .single).reportRun .panel .ok)
    | .single => nothing
  | .force => if s.forceAccepted then taken s.takeForce else nothing
  | .clearPersist => taken s.clearPersist
  | .recall => s.offerRecall ⟨e, a.mode, a.action, a.slot.getD 0⟩
  | .default => s.panelPlaceWhole Setup.default .default none taken
  | .undo => s.panelPlaceWhole s.setup.shadow .undo none taken
  | .toggle => s.panelChange (a.field.getD 0) (toggledValue (s.w.val (a.field.getD 0))) taken
  | .step => s.panelStep (a.field.getD 0) (a.step.getD 0) taken
  | .adjust => s.panelStep (a.field.getD 0) (e.n * a.step.getD 0) taken

/-- The local action an event calls for, under the panel access state (07 R136). -/
def State.offerLocal (e : PanelEvent) (a : ActionEntry) (s : State) : State :=
  let act := calledAction e.kind a
  if act = .none then s.concludeEvent e a.mode a.action .none .ok
  else
    match s.panel.access with
    | .local => s.takeLocal act e a
    | .remote =>
      if act = .localReturn then
        (s.withPanel { s.panel with access := .local }).concludeEvent e a.mode a.action .taken .ok
      else s.concludeEvent e a.mode a.action .suppressed .ok
    | .lockout => s.concludeEvent e a.mode a.action .suppressed .ok

/-- Step 5 of 07 R131 under the entry's mode. -/
def State.actOn (e : PanelEvent) (a : ActionEntry) (s : State) : State :=
  match a.mode with
  | .off => s
  | .report => s.concludeEvent e a.mode a.action .none .ok
  | .local => s.offerLocal e a
  | .both => s.offerLocal e a

/-! ## Events (07 R131, R139, R140, R143) -/

/-- A wake: the dim state is left, the idle timer restarted and a WAKE report queued (07 R140). -/
def State.wake (kind : EventKind) (code : Nat) (s : State) : State :=
  ((s.withComp { s.comp with dim := false }).restartIdle).report (.wake code kind)

/-- The consumed mark of a key. -/
def State.setConsumed (k : Nat) (mark : Bool) (s : State) : State :=
  s.withPanel { s.panel with keys := s.panel.keys.set keyDefault k { s.panel.key k with consumed := mark } }

/-- The click of a PRESS (07 R143). DESIGN CHOICE (log 38): the 2 ms of a PRESS that waited unhandled (07 R131) count from
its handling. -/
def State.clickFor (a : ActionEntry) (s : State) : State :=
  if a.mode ≠ .off ∧ a.click ∧ s.w.click ∧ s.panel.alarmEnd = none then
    s.withPanel { s.panel with click := some (s.after (millis 2)) }
  else s

/-- A PRESS may become the repeat key (07 R124). DESIGN CHOICE (log 38): the 400 ms of a PRESS that waited unhandled
(07 R131) count from its handling. -/
def State.repeatFor (k : Nat) (a : ActionEntry) (s : State) : State :=
  if a.mode ≠ .off ∧ a.rep then s.withPanel { s.panel with repeatKey := some (k, s.after (millis 400)) } else s

/-- A RELEASE ends its own key's repeat (07 R125). DESIGN CHOICE (log 41): one that waited unhandled (07 R131) ends it at its
handling. -/
def State.endRepeat (k : Nat) (s : State) : State :=
  match s.panel.repeatKey with
  | some (j, _) => if j = k then s.withPanel { s.panel with repeatKey := none } else s
  | none => s

/-- The handling of a PRESS (07 R131). -/
def State.handlePress (k : Nat) (s : State) : State :=
  if s.comp.dim then (s.wake .press k).setConsumed k true
  else
    let a := s.panel.action k
    ((s.restartIdle.clickFor a).repeatFor k a).actOn ⟨.press, k, 0⟩ a

/-- The handling of a RELEASE (07 R131, R140). -/
def State.handleRelease (k : Nat) (s : State) : State :=
  if (s.panel.key k).consumed then (s.setConsumed k false).restartIdle
  else (s.restartIdle.endRepeat k).actOn ⟨.release, k, 0⟩ (s.panel.action k)

/-- The handling of a REPEAT (07 R125, R131). -/
def State.handleRepeat (k : Nat) (s : State) : State := s.actOn ⟨.repeat_, k, 0⟩ (s.panel.action k)

/-- The handling of a TURN of encoder `e` (07 R131). -/
def State.handleTurn (e : Nat) (n : Int) (s : State) : State :=
  if s.comp.dim then s.wake .turn (96 + e)
  else s.restartIdle.actOn ⟨.turn, 96 + e, n⟩ (s.panel.action (96 + e))

/-- Whether events may be handled: not during power-on recall, nor while an offered action is unanswered (07 R131), nor at
the instant a deferred RESET is due (log 18). -/
def State.panelReady (s : State) : Bool := !s.recalling && s.panel.offered.isNone && !s.resetDue

/-- The first waiting event is taken out of the wait; none where another event, or none, may be handled now. -/
def State.takeEvent (e : PanelEvent) (s : State) : Option State :=
  if s.panelReady then
    match s.panel.events with
    | f :: rest => if f = e then some (s.withPanel { s.panel with events := rest }) else none
    | [] => none
  else none

/-- A panel event's row: the event at the front of those that wait is handled whole (07 R131, log 2). -/
def panelEvent (i : Instr) (e : PanelEvent) (handle : State → State) (s : State) : Host.Outcome State Fault Refusal :=
  guarded i (fun s => match s.takeEvent e with
    | some t => handle t
    | none => s) s

/-- PRESS (07 R131). -/
def execPress (key : Nat) (s : State) : Host.Outcome State Fault Refusal :=
  panelEvent (.press key) ⟨.press, key, 0⟩ (State.handlePress key) s

/-- RELEASE (07 R125, R131). -/
def execRelease (key : Nat) (s : State) : Host.Outcome State Fault Refusal :=
  panelEvent (.release key) ⟨.release, key, 0⟩ (State.handleRelease key) s

/-- REPEAT (07 R124, R131). -/
def execRepeat (key : Nat) (s : State) : Host.Outcome State Fault Refusal :=
  panelEvent (.repeatKey key) ⟨.repeat_, key, 0⟩ (State.handleRepeat key) s

/-- TURN (07 R128, R131). -/
def execTurn (encoder : Nat) (n : Int) (s : State) : Host.Outcome State Fault Refusal :=
  panelEvent (.turn encoder n) ⟨.turn, 96 + encoder, n⟩ (State.handleTurn encoder n) s

/-! ## Timers (07 R139, R140, R143, R144) -/

/-- IDLE_TIMER_EXPIRY (07 R139): entry to the dim state; in it the timer only stops (log 24). -/
def execIdleTimerExpiry (s : State) : Host.Outcome State Fault Refusal :=
  if s.dueOpt s.panel.idle then
    if s.comp.dim then .next (s.withPanel { s.panel with idle := none })
    else .next ((s.withComp { s.comp with dim := true }).withPanel { s.panel with idle := none, repeatKey := none })
  else .next s

/-- CLICK_END (07 R143). -/
def execClickEnd (s : State) : Host.Outcome State Fault Refusal :=
  if s.dueOpt s.panel.click then .next (s.withPanel { s.panel with click := none }) else .next s

/-- ALARM_END (07 R144). -/
def execAlarmEnd (s : State) : Host.Outcome State Fault Refusal :=
  if s.dueOpt s.panel.alarmEnd then .next (s.withPanel { s.panel with alarmEnd := none }) else .next s

end Sys2Proof.Machine
end

