-- ==== Sys2Proof/Machine/Readout.lean ====
section
/-!
DEFINITION. The queries of the Buffer Pool (11 R200 to R202), PIN and UNPIN (03 R57), and the Readout Engine's stream
(11 R204 to R211).
-/

namespace Sys2Proof.Machine

/-! ## Queries -/

/-- The descriptor of a buffer that has one: none in FREE and FILLING (03 R53, 11 R201). -/
def Buffer.described (x : Buffer) : Option Descriptor :=
  if x.state = .free ∨ x.state = .filling then none else x.desc

/-- A buffer index as one byte, 0xFF for none (12 R216). -/
def optByte (b : Option Nat) : Byte :=
  match b with
  | some n => BitVec.ofNat 8 n
  | none => 0xFF

/-- One buffer entry of a BUFFERS answer (12 R216). -/
def bufferEntry (x : Buffer) : List Byte :=
  let seq := match x.described with
    | some d => d.seq.toNat
    | none => 0
  [BitVec.ofNat 8 x.state.code, flagsByte [x.pinned, x.stale, x.described.isSome]] ++ beBytes 4 seq

/-- The BUFFERS answer of 59 bytes (11 R200, 12 R216). -/
def State.buffersBytes (s : State) : List Byte :=
  let list := s.pool.completion.map (BitVec.ofNat 8)
  [BitVec.ofNat 8 s.pool.count]
    ++ (List.range 8).flatMap (fun b => if b < s.pool.count then bufferEntry (s.pool.buf b) else List.replicate 6 0)
    ++ [BitVec.ofNat 8 list.length] ++ (list ++ List.replicate (8 - list.length) 0xFF)
    ++ [optByte (s.readout.stream.map (fun st => st.buf))]

/-- BUFFERS once taken (11 R200). -/
def State.takeBuffers (tag : Byte) (s : State) : State := s.answer 0x40 tag .ok s.buffersBytes

/-- The four pairs of channel and range of a DESCRIBE answer, unused pairs zero (12 R216). -/
def chanPairs (cs : List (Ch × Nat)) : List Byte :=
  (cs.flatMap (fun c => [BitVec.ofNat 8 c.1.num, BitVec.ofNat 8 c.2])) ++ List.replicate (8 - 2 * cs.length) 0

/-- The DESCRIBE answer of 36 bytes (11 R201, 12 R216). -/
def describeBytes (b : Nat) (x : Buffer) (d : Descriptor) : List Byte :=
  [BitVec.ofNat 8 b, BitVec.ofNat 8 x.state.code, flagByte x.pinned] ++ beBytes 4 d.seq.toNat
    ++ [BitVec.ofNat 8 d.values.chans.length] ++ chanPairs d.values.chans ++ [BitVec.ofNat 8 d.values.mode.code]
    ++ beBytes 4 d.values.decim ++ beBytes 4 d.values.len ++ beBytes 4 d.values.stored ++ beBytes 4 d.values.pre
    ++ beBytes 2 d.values.segs ++ [flagsByte [d.gapped, d.clipped, d.stale]]

/-- DESCRIBE once taken (11 R201). -/
def State.takeDescribe (tag buffer : Byte) (s : State) : State :=
  if s.pool.count ≤ buffer.toNat then s.answer 0x41 tag .range []
  else
    match (s.pool.buf buffer.toNat).described with
    | none => s.answer 0x41 tag .state []
    | some d => s.answer 0x41 tag .ok (describeBytes buffer.toNat (s.pool.buf buffer.toNat) d)

/-- A segment entry of a SEGMENTS answer, 18 bytes (12 R216). -/
def segmentBytes (e : SegEntry) : List Byte :=
  beBytes 6 e.tick.toNat ++ beBytes 4 e.sub ++ [BitVec.ofNat 8 e.kind.code] ++ beBytes 4 e.origin ++ beBytes 2 e.clips
    ++ [flagsByte [e.gapped]]

/-- SEGMENTS once taken (11 R202). -/
def State.takeSegments (tag buffer : Byte) (first count : BitVec 16) (s : State) : State :=
  if s.pool.count ≤ buffer.toNat then s.answer 0x42 tag .range []
  else
    match (s.pool.buf buffer.toNat).described with
    | none => s.answer 0x42 tag .state []
    | some d =>
      if d.values.segs ≤ first.toNat ∨ count.toNat = 0 then s.answer 0x42 tag .range []
      else
        let n := min (min count.toNat 100) (d.values.segs - first.toNat)
        s.answer 0x42 tag (if n = count.toNat then .ok else .clamped)
          ([buffer] ++ beBytes 4 d.seq.toNat ++ bytes16 first ++ [BitVec.ofNat 8 n]
            ++ ((d.segs.drop first.toNat).take n).flatMap segmentBytes)

/-! ## Pinning (03 R57) -/

/-- A buffer's pinned flag. -/
def State.setPin (b : Nat) (p : Bool) (s : State) : State :=
  s.withPool (s.pool.setBuf b { s.pool.buf b with pinned := p })

/-- PIN once taken (03 R57). -/
def State.takePin (tag buffer : Byte) (s : State) : State :=
  let b := buffer.toNat
  if s.pool.count ≤ b then s.answer 0x43 tag .range []
  else if (s.pool.buf b).state = .free ∨ (s.pool.buf b).state = .filling then s.answer 0x43 tag .state []
  else if (s.pool.buf b).pinned then s.answer 0x43 tag .ok []
  else if s.pool.count - 1 ≤ s.pool.pinnedCount then s.answer 0x43 tag .limit []
  else (s.setPin b true).answer 0x43 tag .ok []

/-- UNPIN once taken (03 R57). The re-examination of WAIT_BUFFER is the row REEXAMINATION. -/
def State.takeUnpin (tag buffer : Byte) (s : State) : State :=
  let b := buffer.toNat
  if s.pool.count ≤ b then s.answer 0x44 tag .range []
  else if (s.pool.buf b).pinned then (s.setPin b false).answer 0x44 tag .ok []
  else s.answer 0x44 tag .ok []

/-! ## Streams (11 R204, R205, R209, R211) -/

/-- A READ refused BUSY sets the stream's collided mark (11 R211). -/
def State.collideStream (s : State) : State :=
  s.withReadout { s.readout with stream := s.readout.stream.map (fun st => { st with collided := true }) }

/-- The stream record of an accepted READ (11 R205): the channel's ring in the buffer, and the position of the first record
index (11 R206). `n` is the effective count. -/
def State.openStream (tag : Byte) (b : Nat) (c : Ch) (seg first n : Nat) (d : Descriptor) (s : State) : State :=
  let k := d.values.chans.findIdx (fun x => decide (x.1 = c))
  let w := d.values.mode.perGroup
  s.withReadout { s.readout with
    stream := some
      { buf := b, seq := d.seq, chan := c, seg := seg, first := first, next := first, remaining := n, tag := tag,
        collided := false, base := s.pool.ringBase b k d.values.segs seg d.values.stored, len := d.values.stored,
        perIndex := w, pos := (d.origin seg + first * w) % d.values.stored, cut := first, sent := first,
        last := first + n } }

/-- READ once taken (11 R204). -/
def State.takeRead (tag buffer channel : Byte) (segment : BitVec 16) (first count : BitVec 32) (s : State) : State :=
  let b := buffer.toNat
  if s.pool.count ≤ b then s.answer 0x45 tag .range []
  else
    match Ch.ofNum channel.toNat with
    | none => s.answer 0x45 tag .range []
    | some c =>
      if s.readout.stream.isSome then s.collideStream.answer 0x45 tag .busy []
      else
        match (s.pool.buf b).described with
        | none => s.answer 0x45 tag .state []
        | some d =>
          if !(d.values.chans.any (fun x => decide (x.1 = c))) || decide (d.values.segs ≤ segment.toNat) then
            s.answer 0x45 tag .range []
          else if d.values.len ≤ first.toNat ∨ count.toNat = 0 then s.answer 0x45 tag .range []
          else
            let n := min count.toNat (d.values.len - first.toNat)
            (s.openStream tag b c segment.toNat first.toNat n d).answer 0x45 tag
              (if n = count.toNat then .ok else .clamped)
              (beBytes 4 n ++ beBytes 4 d.seq.toNat ++ [BitVec.ofNat 8 d.values.mode.code]
                ++ beBytes 4 (n * d.values.mode.perGroup))

/-- READ_CANCEL once taken (11 R209). -/
def State.takeReadCancel (tag : Byte) (s : State) : State :=
  if s.readout.stream.isSome then (s.endStream .cancelled).answer 0x46 tag .ok []
  else s.answer 0x46 tag .state []

/-! ## Cutting frames (11 R207, R208) -/

/-- Words of the next DATA frame of a stream: 1000, or the words that remain of it. -/
def Stream.frameWords (st : Stream) : Nat := min Config.dataFrameWords ((st.last - st.cut) * st.perIndex)

/-- The stream, if its next DATA frame can be made ready: no frame is ready and the fetch store holds its words. -/
def State.frameToCut (s : State) : Option Stream :=
  match s.readout.stream with
  | none => none
  | some st =>
    if s.readout.frames = [] ∧ 0 < st.frameWords ∧ st.frameWords ≤ s.readout.words.length then some st else none

/-- A DATA frame becomes ready; the one with the stream's last record index is COMPLETE and ends the stream (11 R207,
R208). Its words stay in the fetch store until its transmission begins. -/
def State.cutFrame (st : Stream) (s : State) : State :=
  let n := st.frameWords / st.perIndex
  let last := decide (st.last ≤ st.cut + n)
  s.withReadout { s.readout with
    frames := [⟨st.tag, st.cut, n, if last then .complete else .more, st.collided,
      s.readout.words.take st.frameWords⟩],
    stream := if last then none else some { st with cut := st.cut + n } }

/-! ## The rows -/

/-- BUFFERS (11 R200). -/
def execBuffers (tag : Byte) (s : State) : Host.Outcome State Fault Refusal :=
  command (.buffers tag) (State.takeBuffers tag) s

/-- DESCRIBE (11 R201). -/
def execDescribe (tag buffer : Byte) (s : State) : Host.Outcome State Fault Refusal :=
  command (.describe tag buffer) (State.takeDescribe tag buffer) s

/-- SEGMENTS (11 R202). -/
def execSegments (tag buffer : Byte) (first count : BitVec 16) (s : State) : Host.Outcome State Fault Refusal :=
  command (.segments tag buffer first count) (State.takeSegments tag buffer first count) s

/-- PIN (03 R57). -/
def execPin (tag buffer : Byte) (s : State) : Host.Outcome State Fault Refusal :=
  command (.pin tag buffer) (State.takePin tag buffer) s

/-- UNPIN (03 R57). -/
def execUnpin (tag buffer : Byte) (s : State) : Host.Outcome State Fault Refusal :=
  command (.unpin tag buffer) (State.takeUnpin tag buffer) s

/-- READ (11 R204). -/
def execRead (tag buffer channel : Byte) (segment : BitVec 16) (first count : BitVec 32) (s : State) :
    Host.Outcome State Fault Refusal :=
  command (.read tag buffer channel segment first count) (State.takeRead tag buffer channel segment first count) s

/-- READ_CANCEL (11 R209). -/
def execReadCancel (tag : Byte) (s : State) : Host.Outcome State Fault Refusal :=
  command (.readCancel tag) (State.takeReadCancel tag) s

/-- DATA_FRAME_READY (11 R207). -/
def execDataFrameReady (s : State) : Host.Outcome State Fault Refusal :=
  match s.frameToCut with
  | some st => .next (s.cutFrame st)
  | none => .next s

end Sys2Proof.Machine
end

