-- ==== Sys2Proof/Machine/Reset.lean ====
section
/-!
DEFINITION. The two resets: power-on reset (09 R178), the RESET command (10 R191, R199), taken at once or deferred
(09 R177). What each keeps is stated block by block in 01 R15, 02 R39, 03 R67, 04 R77, 05 R98, 06 R121, 07 R145, 08 R163,
09 R182, 10 R198, R199 and 11 R213.
-/

namespace Sys2Proof.Machine

/-- A grant in progress at a reset runs to its end: a write's entries have left the emptied FIFO, a read's words are
discarded (04 R77). -/
def GrantJob.detach : GrantJob → GrantJob
  | .write es _ => .write es false
  | .draw b _ => .draw b false
  | .readout b _ => .readout b false

/-- A tick at which something in progress ends, counted from the tick counter's new 0. -/
def State.rebased (s : State) (ends : Tick) : Tick := ends - s.trg.tick

/-- The grant in progress as a reset leaves it. -/
def State.resetGrant (s : State) : Option Grant := s.smc.grant.map (fun g => ⟨s.rebased g.ends, g.job.detach⟩)

/-- POWER_ON_RESET (09 R178): every block at its value after power-on reset; the flash and the sample memory keep their
contents, and a grant in progress runs on (04 R77, log 13). -/
def State.powerOn (upset : Upset) (s : State) : State :=
  { State.reset with
    smc := ⟨[], s.resetGrant⟩, mem := s.mem, flash := (s.upsetFlash upset).flash, pending := s.pending }

/-- The response to a RESET command, with the mark whether a store write deferred it (10 R191, 12 R216). -/
def resetResponse (mark : Bool) (tag : Byte) : Resp := ⟨0x02, tag, .ok, [flagByte mark]⟩

/-- The reset of the RESET commands of `tags`, in the order they arrived (10 R191, R199): the loaded tables, the flash, the
sample memory, symbol alignment, the lanes' disparities, the responses that wait and the frame in transmission or the IDLE
symbols in its place are kept; and a tick that has begun is the new tick 0 (logs 12, 35, 36). DESIGN
CHOICE (log 46): panel events that wait unhandled are dropped. -/
def State.commandReset (tags : List Byte) (mark : Bool) (s : State) : State :=
  { State.reset with
    sp := { SamplePath.reset with corr := s.sp.corr },
    trg := { Trigger.reset with begun := s.trg.begun },
    smc := ⟨[], s.resetGrant⟩,
    mem := s.mem,
    comp := { Compositor.reset with clut := s.comp.clut, palette := s.comp.palette, glyphs := s.comp.glyphs },
    panel := { Panel.reset with actions := s.panel.actions, leds := s.panel.leds },
    store := { Store.reset with resetKind := .command },
    flash := s.flash,
    link := { Link.reset with
      aligned := s.link.aligned,
      rxDisparity := s.link.rxDisparity,
      resp := s.link.resp ++ tags.map (resetResponse mark),
      lane := s.link.lane.map (fun t => { t with ends := s.rebased t.ends }),
      txDisparity := s.link.txDisparity,
      idleFrom := s.rebased s.link.idleFrom },
    pending := s.pending }

/-- RESET once taken: at once in IDLE and STARTING, else held by the Setup Store, joining one already deferred (09 R177,
10 R191). -/
def State.takeReset (tag : Byte) (s : State) : State :=
  match s.store.activity with
  | .idle => s.commandReset [tag] false
  | .starting => s.commandReset [tag] false
  | .reading => s.withStore { s.store with deferred := s.store.deferred ++ [tag], deferredByWrite := false }
  | .writing => s.withStore { s.store with deferred := s.store.deferred ++ [tag], deferredByWrite := true }

/-- POWER_ON_RESET (09 R178). -/
def execPowerOnReset (upset : Upset) (s : State) : Host.Outcome State Fault Refusal :=
  guarded (.powerOnReset upset) (State.powerOn upset) s

/-- RESET (10 R191). -/
def execReset (tag : Byte) (s : State) : Host.Outcome State Fault Refusal :=
  command (.reset tag) (State.takeReset tag) s

/-- RESET_TAKEN (09 R177). -/
def execResetTaken (s : State) : Host.Outcome State Fault Refusal :=
  if s.resetDue then .next (s.commandReset s.store.deferred s.store.deferredByWrite) else .next s

end Sys2Proof.Machine
end

