-- ==== Sys2Proof/Machine/Sample.lean ====
section
/-!
DEFINITION. SAMPLE (01 R1): one tick. The ports' codes are corrected (01 R5, R6), the tick counter advances and the EXT
pin is conditioned (02 R16, R20), the sample is examined for a fire (02 R34), and it joins its group, whose words are
handed to the writer FIFO at its last member (01 R8 to R13).
-/

namespace Sys2Proof.Machine

/-! ## Correction (01 R5, R6) -/

/-- Step 3's magnitude: floor((|r - z| x g + 2048) / 4096). -/
def correctedMagnitude (e : CorrEntry) (r : Nat) : Nat := (((r : Int) - e.zero).natAbs * e.gain + 2048) / 4096

/-- c0 of 01 R5: the magnitude with the sign of r - z. -/
def correctedRaw (e : CorrEntry) (r : Nat) : Int :=
  if (e.zero : Int) ≤ r then correctedMagnitude e r else -(correctedMagnitude e r : Int)

/-- The corrected code and the clip mark (01 R6). -/
def correct (e : CorrEntry) (r : Nat) : Int × Bool :=
  (clampInt (-512) 511 (correctedRaw e r), decide (correctedRaw e r < -512 ∨ 511 < correctedRaw e r))

/-! ## EXT conditioning (02 R20) -/

/-- The conditioner after one tick. -/
def conditionExt (value : Bool) (count : Nat) (pin : Bool) : Bool × Nat :=
  if pin = value then (value, 0) else if count < 2 then (value, count + 1) else (pin, 0)

/-! ## Groups (01 R8 to R13) -/

/-- A channel's accumulator with one more member of code `c` and clip mark `k` (01 R9 to R11): a mark on the minimum
or maximum is that of any member whose code equals it. -/
def Acc.add (a : Option Acc) (c : Int) (k : Bool) : Acc :=
  match a with
  | none => ⟨c, k, c, k, c, k, c, k⟩
  | some a =>
    { first := a.first, firstClip := a.firstClip,
      min := if c < a.min then c else a.min,
      minClip := if c < a.min then k else if c = a.min then a.minClip || k else a.minClip,
      max := if a.max < c then c else a.max,
      maxClip := if a.max < c then k else if c = a.max then a.maxClip || k else a.maxClip,
      sum := a.sum + c, anyClip := a.anyClip || k }

/-- The mean of D members of sum s, rounded half away from zero (01 R11). -/
def meanCode (s : Int) (d : Nat) : Int :=
  let m : Int := ((2 * s.natAbs + d) / (2 * d) : Nat)
  if 0 ≤ s then m else -m

/-- The words a completed group of one channel yields, in the order handed (01 R9 to R11). -/
def groupWords (mode : AcqMode) (d : Nat) (a : Acc) : List SampleWord :=
  match mode with
  | .sample => [sampleWord a.first a.firstClip]
  | .peak => [sampleWord a.min a.minClip, sampleWord a.max a.maxClip]
  | .hires => [sampleWord (meanCode a.sum d) a.anyClip]

/-- The clip count after a sample: one more for each enabled channel whose sample is clipped, saturating (01 R13). -/
def countClips (count : Nat) (chans : List Ch) (clips : PerCh (Int × Bool)) : Nat :=
  min 65535 (count + (chans.filter (fun c => (clips.get c).2)).length)

/-- Ring position of the group of ordinal g (03 R47). -/
def ringPos (c : Captured) (g : Nat) : Nat := (g * c.mode.perGroup) % c.stored

/-- The group's words with their addresses in the order handed: for each listed channel, ascending, at its ring position
(01 R12, 03 R47, 04 R69). `k` is the place of the first channel of the list. -/
def State.groupEntries (g : Grouping) (c : Captured) (b : Nat) (acc : PerCh (Option Acc)) (s : State) :
    Nat → List Ch → List (Nat × SampleWord)
  | _, [] => []
  | k, ch :: rest =>
    let base := s.pool.ringBase b k c.segs s.acq.segIdx c.stored + ringPos c s.acq.ordinal
    let words := match acc.get ch with
      | some a => groupWords g.mode g.decim a
      | none => []
    words.zipIdx.map (fun p => (base + p.2, p.1)) ++ State.groupEntries g c b acc s (k + 1) rest

/-- The group's words handed to the writer FIFO; `split`: see `Instr.sample` (04 R72). -/
def State.handGroup (split : Option Nat) (ws : List (Nat × SampleWord)) (s : State) : State :=
  match split with
  | none => s.handWords ws
  | some n => (s.handWords (ws.take n)).endDueWrite.handWords (ws.drop n)

/-- The sample joins the segment's current group; the group of a last member is handed and counts as written
(01 R8, R12, R13). -/
def State.joinGroup (cs : PerCh (Int × Bool)) (split : Option Nat) (s : State) : State :=
  match s.sp.grouping with
  | none => s
  | some g =>
    let acc := PerCh.of (fun c => if c ∈ g.chans then some (Acc.add (s.sp.acc.get c) (cs.get c).1 (cs.get c).2) else none)
    let clips := countClips s.sp.clipCount g.chans cs
    if s.sp.groupPos + 1 < g.decim then
      s.withSp { s.sp with acc := acc, groupPos := s.sp.groupPos + 1, clipCount := clips }
    else
      let s := s.withSp { s.sp with acc := PerCh.const none, groupPos := 0, clipCount := clips }
      match s.acq.cur, s.acq.captured with
      | some b, some c => (s.handGroup split (s.groupEntries g c b acc 0 g.chans)).groupWritten
      | _, _ => s

/-- The codes the ports give at a tick: the data lines where the strobe is asserted, else the held code (01 R1). -/
def portCodes (held : PerCh (BitVec 10)) (a b c d : Option (BitVec 10)) : PerCh (BitVec 10) :=
  ⟨a.getD held.ch1, b.getD held.ch2, c.getD held.ch3, d.getD held.ch4⟩

/-- The corrected codes and clip marks of a tick's raw codes (01 R2, R4). -/
def State.correctAll (raw : PerCh (BitVec 10)) (s : State) : PerCh (Int × Bool) :=
  PerCh.of (fun c => correct (s.activeEntry c) (raw.get c).toNat)

/-- What every tick does whatever the state: held codes, corrected codes, tick counter and EXT conditioning
(01 R1, R7, 02 R16, R20). -/
def State.takeSample (raw : PerCh (BitVec 10)) (cs : PerCh (Int × Bool)) (pin : Bool) (s : State) : State :=
  let e := conditionExt s.trg.ext s.trg.extCount pin
  (s.withSp { s.sp with held := raw, codes := PerCh.of (fun c => (cs.get c).1) }).withTrg
    { s.trg with tick := s.trg.tick + 1, begun := false, halted := false, ext := e.1, extCount := e.2 }

/-- What the sample of tick `t` does at the sequencer. One that falls together with a STOP or an ACQ-class change taken before
it is not examined for a fire, also where the re-armed state is READY at once (02 R38, 03 R62): it updates the comparators
alone (log 44). -/
def State.trySample (unexamined : Bool) (t : Tick) (s : State) : State :=
  if unexamined then s.updateComparators else s.examine t

/-- SAMPLE (01 R1). -/
def execSample (a b c d : Option (BitVec 10)) (ext : Bool) (s : State) (split : Option Nat := none)
    (apart : Bool := false) : Host.Outcome State Fault Refusal :=
  let raw := portCodes s.sp.held a b c d
  let cs := s.correctAll raw
  .next (((s.takeSample raw cs ext).trySample (s.trg.halted && !apart) s.trg.tick).joinGroup cs split)

end Sys2Proof.Machine
end

