-- ==== Sys2Proof/Machine/Screen.lean ====
section
/-!
DEFINITION. The Screen Compositor (chapter 6): frame ticks, the layers of a pixel, and the backlight output.
-/

namespace Sys2Proof.Machine

/-! ## Frame ticks (06 R99 to R101, R108, R109) -/

/-- Tick of frame tick f (06 R99). -/
def frameTickAt (f : Nat) : Tick := ticks (f * 50000000 / 3)

/-- A marker of a value at a position (06 R108, R109). -/
def markerOf (v p : Int) : Marker := ⟨planeRow v p, rowHeld v p⟩

/-- The ground markers a frame tick latches (06 R108). -/
def groundMarkers (w : Setup) : PerCh (Option Marker) :=
  PerCh.of (fun c => if w.enabled c then some (markerOf 0 (w.pos c)) else none)

/-- The trigger marker a frame tick latches (06 R109). -/
def triggerMarker (w : Setup) : Option (Ch × Marker) :=
  match (w.stage 0).src with
  | .chan c => some (c, markerOf (w.stage 0).level (w.pos c))
  | .ext => none

/-- The Compositor's part of a frame tick: counter, phases, markers, and the frame's first pixel next (06 R100). -/
def Compositor.startFrame (c : Compositor) (w : Setup) : Compositor :=
  let f := BitVec.ofNat 32 c.nextFrame
  { c with frame := f, nextFrame := c.nextFrame + 1, slow := slowPhase f, fast := fastPhase f,
           ground := groundMarkers w, trigMark := triggerMarker w, scan := some 0 }

/-- The Rasterizer's part of a frame tick: decay in VARIABLE (05 R92). -/
def State.decayTick (s : State) : State :=
  if s.w.persist = .variable then s.withPlanes (decayPlanes s.w.decay s.planes) else s

/-- FRAME_TICK (06 R100). -/
def execFrameTick (s : State) : Host.Outcome State Fault Refusal :=
  if s.due (frameTickAt s.comp.nextFrame) then .next ((s.withComp (s.comp.startFrame s.w)).decayTick) else .next s

/-! ## Attribute flow (06 R111, R112) -/

/-- Every flag off. -/
def attrOff : Attr := ⟨false, false, false, false, false⟩

/-- What a starting set nothing has formed reads as (log 23). -/
def attrDefault (_ : Nat) : Attr := attrOff

/-- The effect of a code on the attribute set (06 R111). -/
def attrStep (a : Attr) (code : Nat) : Attr :=
  match code with
  | 0x01 => { a with half := true }
  | 0x02 => { a with half := false }
  | 0x03 => { a with inverse := true }
  | 0x04 => { a with inverse := false }
  | 0x05 => { a with underline := true }
  | 0x06 => { a with underline := false }
  | 0x07 => { a with blank := true }
  | 0x08 => { a with blank := false }
  | 0x09 => { a with blink := true }
  | 0x0A => { a with blink := false }
  | 0x0B => attrOff
  | _ => a

/-- The set after the first `n` cells of an overlay row that starts with `a` (06 R112). -/
def Compositor.flow (c : Compositor) (row n : Nat) (a : Attr) : Attr :=
  (List.range n).foldl (fun x col => attrStep x (c.codeAt row col)) a

/-- The starting set of an overlay row of the frame being formed. -/
def Compositor.rowSet (c : Compositor) (row : Nat) : Attr := c.rowSets.get attrDefault row

/-- The starting set that an overlay row's first pixel forms (06 R112). -/
def Compositor.formedRowSet (c : Compositor) (w : Setup) (row : Nat) : Attr :=
  if row = 0 then w.textAttr else c.flow (row - 1) 100 (c.rowSet (row - 1))

/-- The attribute sets as the pixel at (row, col) finds them: the starting set formed at the first pixel of scan row 0, and
the set in force formed where the scan line reaches a cell (06 R112). -/
def Compositor.formSets (c : Compositor) (w : Setup) (row col : Nat) : Compositor :=
  let c := if row % 20 = 0 ∧ col = 0 then
      { c with rowSets := c.rowSets.set attrDefault (row / 20) (c.formedRowSet w (row / 20)) }
    else c
  if col % 8 = 0 then { c with cellSet := c.flow (row / 20) (col / 8) (c.rowSet (row / 20)) } else c

/-! ## Layers (06 R103) -/

/-- Whether a pixel lies in the waveform area (00_scope, Screen geometry). -/
def inWaveform (row col : Nat) : Bool := decide (50 ≤ col ∧ col ≤ 749 ∧ 40 ≤ row ∧ row ≤ 439)

/-- Layer 1, the cursor (06 R118). -/
def Compositor.cursorLayer (c : Compositor) (row col : Nat) : Option Colour :=
  if c.cursor.on ∧ c.slow ∧ row / 20 = c.cursor.row ∧ col / 8 = c.cursor.col then some (c.paletteColour 3) else none

/-- Scan row j of the glyph a code is shown by (06 R111, R114, R115). Bit 7 is pixel column 0 (12 R220). -/
def Compositor.glyphRow (c : Compositor) (code j : Nat) : Byte :=
  if code ≤ 0x20 then 0
  else if code < 0x7F then (if j ≤ 18 then Config.glyphRom code j else 0)
  else if code = 0x7F then (if j ≤ 18 then 0xFF else 0)
  else c.glyphs.get zeroByte ((code - 0x80) * 20 + j)

/-- Whether a pixel of a cell is lit, after UNDERLINE and BLINK (06 R113). -/
def Compositor.litPixel (c : Compositor) (a : Attr) (code j i : Nat) : Bool :=
  ((c.glyphRow code j).getLsbD (7 - i) || (a.underline && decide (j = 19))) && !(a.blink && !c.slow)

/-- Layer 2, the overlay (06 R113, R114). -/
def Compositor.overlayLayer (c : Compositor) (row col : Nat) : Option Colour :=
  let code := c.codeAt (row / 20) (col / 8)
  let a := c.cellSet
  let textColour := if a.half then c.paletteColour 1 else c.paletteColour 0
  if code = 0 ∨ a.blank then none
  else if c.litPixel a code (row % 20) (col % 8) then some (if a.inverse then c.paletteColour 2 else textColour)
  else if a.inverse then some textColour
  else none

/-- The order of the channels under DSP.ORDER (06 R104). -/
def drawOrder (n : Nat) : List Ch :=
  let a := Ch.all.getD (n / 6) .ch1
  let rest := Ch.all.erase a
  let b := rest.getD (n % 6 / 2) .ch1
  let rest' := rest.erase b
  let c := rest'.getD (n % 2) .ch1
  a :: b :: c :: rest'.erase c

/-- The colour of a marker of a channel (06 R110). -/
def Compositor.markerColour (c : Compositor) (ch : Ch) (m : Marker) : Colour :=
  if m.held then c.paletteColour 6 else c.clutColour ch 15

/-- Distance of a pixel row from a marker's centre pixel row, 40 + its plane row. -/
def Marker.offset (m : Marker) (row : Nat) : Nat := ((row : Int) - (40 + m.row : Nat)).natAbs

/-- Whether a ground marker lights a pixel (06 R108). -/
def Marker.groundLit (m : Marker) (row col : Nat) : Bool :=
  decide (m.offset row ≤ 4 ∧ 42 ≤ col ∧ col + m.offset row ≤ 49)

/-- Whether a trigger marker lights a pixel (06 R109). -/
def Marker.triggerLit (m : Marker) (row col : Nat) : Bool :=
  decide (m.offset row ≤ 4 ∧ 750 + m.offset row ≤ col ∧ col ≤ 757)

/-- The ground marker of a channel at a pixel. -/
def Compositor.groundAt (c : Compositor) (row col : Nat) (ch : Ch) : Option Colour :=
  match c.ground.get ch with
  | some m => if m.groundLit row col then some (c.markerColour ch m) else none
  | none => none

/-- The trigger marker at a pixel. -/
def Compositor.triggerAt (c : Compositor) (row col : Nat) : Option Colour :=
  match c.trigMark with
  | some (ch, m) => if m.triggerLit row col then some (c.markerColour ch m) else none
  | none => none

/-- Layer 3, the markers (06 R108 to R110). -/
def Compositor.markerLayer (c : Compositor) (order : List Ch) (row col : Nat) : Option Colour :=
  (order.findSome? (c.groundAt row col)).or (c.triggerAt row col)

/-- Layer 4, the planes (06 R104). -/
def State.planeLayer (s : State) (row col : Nat) : Option Colour :=
  if inWaveform row col then
    (drawOrder s.w.order).findSome? (fun ch =>
      if s.cell ch (col - 50) (row - 40) = 0 then none
      else some (s.comp.clutColour ch (s.cell ch (col - 50) (row - 40) / 16)))
  else none

/-- Whether DSP.GRID lights a pixel (06 R107). -/
def gridLit (g : Grid) (row col : Nat) : Bool :=
  let frame := decide (col = 50 ∨ col = 749 ∨ row = 40 ∨ row = 439)
  inWaveform row col &&
    (match g with
     | .full => frame || decide ((col - 50) % 70 = 0) || decide ((row - 40) % 50 = 0)
     | .axes => frame || decide (col = 400) || decide (row = 240)
     | .frame => frame
     | .none => false)

/-- Layer 5, the graticule (06 R107). -/
def State.gridLayer (s : State) (row col : Nat) : Option Colour :=
  if gridLit s.w.grid row col then some (s.comp.paletteColour 4) else none

/-- The colour of a pixel: the first layer that gives one (06 R103). -/
def State.pixelColour (s : State) (row col : Nat) : Colour :=
  (((((s.comp.cursorLayer row col).or (s.comp.overlayLayer row col)).or
    (s.comp.markerLayer (drawOrder s.w.order) row col)).or (s.planeLayer row col)).or (s.gridLayer row col)).getD
    (s.comp.paletteColour 5)

/-- The pixel at place `n` of the frame, in raster order, is formed and sent (06 R102). -/
def State.formPixel (n : Nat) (s : State) : State :=
  let row := n / 800
  let col := n % 800
  let t := s.withComp (s.comp.formSets s.w row col)
  t.withComp { t.comp with
    pixel := some ⟨row, col, t.pixelColour row col⟩,
    scan := if n + 1 < Config.framePixels then some (n + 1) else none }

/-- PIXEL_FORMED (06 R102). -/
def execPixelFormed (s : State) : Host.Outcome State Fault Refusal :=
  match s.comp.scan with
  | some n => .next (s.formPixel n)
  | none => .next s

/-! ## Backlight (06 R119) -/

/-- The level a period latches (06 R119). -/
def State.backlightLevel (s : State) : Nat := if s.comp.dim then min s.w.dimLevel s.w.backlight else s.w.backlight

/-- A backlight period of a level that begins at tick `e`. -/
def Compositor.startPeriod (c : Compositor) (level : Nat) (e : Tick) : Compositor :=
  { c with level := level, pwm := decide (0 < level),
           pwmEnd := if 0 < level ∧ level < 255 then some (e + ticks (200 * level)) else none,
           nextPeriod := e + 51000 }

/-- BACKLIGHT_PERIOD (06 R119). -/
def execBacklightPeriod (s : State) : Host.Outcome State Fault Refusal :=
  if s.due s.comp.nextPeriod then .next (s.withComp (s.comp.startPeriod s.backlightLevel s.comp.nextPeriod)) else .next s

/-- BL_PWM_HIGH_TIME_END (06 R119). -/
def execBlPwmHighTimeEnd (s : State) : Host.Outcome State Fault Refusal :=
  if s.dueOpt s.comp.pwmEnd then .next (s.withComp { s.comp with pwm := false, pwmEnd := none }) else .next s

end Sys2Proof.Machine
end

