-- ==== Sys2Proof/Machine/Dispatch.lean ====
section
/-!
DEFINITION. What each command of the table does to everything but the queue: one arm for each row of opcode_table.json.
-/

namespace Sys2Proof.Machine

def exec (i : Instr) (s : State) : Host.Outcome State Fault Refusal :=
  match i with
  | .powerOnReset upset => Sys2Proof.Machine.execPowerOnReset upset s
  | .reset tag => Sys2Proof.Machine.execReset tag s
  | .resetTaken => Sys2Proof.Machine.execResetTaken s
  | .sample a b c d ext split apart => Sys2Proof.Machine.execSample a b c d ext s split apart
  | .stageTimeout => Sys2Proof.Machine.execStageTimeout s
  | .holdoffExpiry => Sys2Proof.Machine.execHoldoffExpiry s
  | .autoTimerExpiry => Sys2Proof.Machine.execAutoTimerExpiry s
  | .trigOutEnd => Sys2Proof.Machine.execTrigOutEnd s
  | .frameTick => Sys2Proof.Machine.execFrameTick s
  | .backlightPeriod => Sys2Proof.Machine.execBacklightPeriod s
  | .keyScan pressed => Sys2Proof.Machine.execKeyScan pressed s
  | .encoderSampling phaseA phaseB => Sys2Proof.Machine.execEncoderSampling phaseA phaseB s
  | .windowEnd => Sys2Proof.Machine.execWindowEnd s
  | .repeatTimerExpiry => Sys2Proof.Machine.execRepeatTimerExpiry s
  | .press key => Sys2Proof.Machine.execPress key s
  | .release key => Sys2Proof.Machine.execRelease key s
  | .repeatKey key => Sys2Proof.Machine.execRepeat key s
  | .turn encoder n => Sys2Proof.Machine.execTurn encoder n s
  | .idleTimerExpiry => Sys2Proof.Machine.execIdleTimerExpiry s
  | .clickEnd => Sys2Proof.Machine.execClickEnd s
  | .alarmEnd => Sys2Proof.Machine.execAlarmEnd s
  | .arbitration => Sys2Proof.Machine.execArbitration s
  | .acqWriteGrantEnd => Sys2Proof.Machine.execAcqWriteGrantEnd s
  | .drawReadGrantEnd => Sys2Proof.Machine.execDrawReadGrantEnd s
  | .readoutGrantEnd => Sys2Proof.Machine.execReadoutGrantEnd s
  | .segmentComplete drawFirst => Sys2Proof.Machine.execSegmentComplete drawFirst s
  | .reexamination => Sys2Proof.Machine.execReexamination s
  | .rasterizerTake => Sys2Proof.Machine.execRasterizerTake s
  | .dataFrameReady => Sys2Proof.Machine.execDataFrameReady s
  | .flashEraseEnd upset => Sys2Proof.Machine.execFlashEraseEnd upset s
  | .flashProgramEnd upset => Sys2Proof.Machine.execFlashProgramEnd upset s
  | .flashVerifyEnd upset => Sys2Proof.Machine.execFlashVerifyEnd upset s
  | .limitTimerExpiry upset => Sys2Proof.Machine.execLimitTimerExpiry upset s
  | .recallReadEnd upset => Sys2Proof.Machine.execRecallReadEnd upset s
  | .powerOnRecallEnd upset => Sys2Proof.Machine.execPowerOnRecallEnd upset s
  | .frameReceived words => Sys2Proof.Machine.execFrameReceived words s
  | .frameAbandoned words => Sys2Proof.Machine.execFrameAbandoned words s
  | .unknownType frame => Sys2Proof.Machine.execUnknownType frame s
  | .transmissionStart => Sys2Proof.Machine.execTransmissionStart s
  | .transmissionEnd => Sys2Proof.Machine.execTransmissionEnd s
  | .status tag => Sys2Proof.Machine.execStatus tag s
  | .loadCorr tag channel range zero gain => Sys2Proof.Machine.execLoadCorr tag channel range zero gain s
  | .loadClut tag channel colours => Sys2Proof.Machine.execLoadClut tag channel colours s
  | .loadPalette tag colours => Sys2Proof.Machine.execLoadPalette tag colours s
  | .loadGlyph tag code rows => Sys2Proof.Machine.execLoadGlyph tag code rows s
  | .loadAction tag control mode action slot field step rep click threshold factor => Sys2Proof.Machine.execLoadAction tag control mode action slot field step rep click threshold factor s
  | .loadLed tag led source direct current => Sys2Proof.Machine.execLoadLed tag led source direct current s
  | .setField tag field value => Sys2Proof.Machine.execSetField tag field value s
  | .getField tag field => Sys2Proof.Machine.execGetField tag field s
  | .setStage tag stage src cond level hyst pol limit onmatch timeout => Sys2Proof.Machine.execSetStage tag stage src cond level hyst pol limit onmatch timeout s
  | .getSetup tag selector => Sys2Proof.Machine.execGetSetup tag selector s
  | .loadSetup tag values => Sys2Proof.Machine.execLoadSetup tag values s
  | .save tag slot name => Sys2Proof.Machine.execSave tag slot name s
  | .recall tag slot => Sys2Proof.Machine.execRecall tag slot s
  | .undo tag => Sys2Proof.Machine.execUndo tag s
  | .defaultSetup tag => Sys2Proof.Machine.execDefault tag s
  | .erase tag slot => Sys2Proof.Machine.execErase tag slot s
  | .setPoweron tag slot => Sys2Proof.Machine.execSetPoweron tag slot s
  | .slotInfo tag => Sys2Proof.Machine.execSlotInfo tag s
  | .run tag => Sys2Proof.Machine.execRun tag s
  | .single tag => Sys2Proof.Machine.execSingle tag s
  | .stop tag => Sys2Proof.Machine.execStop tag s
  | .force tag => Sys2Proof.Machine.execForce tag s
  | .buffers tag => Sys2Proof.Machine.execBuffers tag s
  | .describe tag buffer => Sys2Proof.Machine.execDescribe tag buffer s
  | .segments tag buffer first count => Sys2Proof.Machine.execSegments tag buffer first count s
  | .pin tag buffer => Sys2Proof.Machine.execPin tag buffer s
  | .unpin tag buffer => Sys2Proof.Machine.execUnpin tag buffer s
  | .read tag buffer channel segment first count => Sys2Proof.Machine.execRead tag buffer channel segment first count s
  | .readCancel tag => Sys2Proof.Machine.execReadCancel tag s
  | .clearPersist tag => Sys2Proof.Machine.execClearPersist tag s
  | .text tag row column codes => Sys2Proof.Machine.execText tag row column codes s
  | .cursor tag state row column => Sys2Proof.Machine.execCursor tag state row column s
  | .panelMode tag access => Sys2Proof.Machine.execPanelMode tag access s
  | .led tag led direct => Sys2Proof.Machine.execLed tag led direct s
  | .alarm tag value => Sys2Proof.Machine.execAlarm tag value s
  | .badlen frame => Sys2Proof.Machine.execBadlen frame s
  | .codeErrorOutsideFrame words => Sys2Proof.Machine.execCodeErrorOutsideFrame s words
  | .symbolAlignmentFound words => Sys2Proof.Machine.execSymbolAlignmentFound s words
  | .pixelFormed => Sys2Proof.Machine.execPixelFormed s
  | .blPwmHighTimeEnd => Sys2Proof.Machine.execBlPwmHighTimeEnd s

end Sys2Proof.Machine
end

