-- ==== Sys2Proof/Safety.lean ====
section
/-!
DEFINITION. The terms claims are stated in: which blocks a step may touch, when the decoder takes a command, what an answer
is, and the invariants the spec states of the whole machine.
-/

namespace Sys2Proof.Machine

/-! ## Frames -/

/-- The parts of the state, one name for each field of `State` but the queue. -/
inductive Block where
  | sp | trg | acq | pool | smc | mem | ras | planes | comp | panel | setup | store | flash | link | readout
  deriving DecidableEq, Repr

/-- A block has the same value in two states. -/
def Block.same (b : Block) (s t : State) : Prop :=
  match b with
  | .sp => t.sp = s.sp
  | .trg => t.trg = s.trg
  | .acq => t.acq = s.acq
  | .pool => t.pool = s.pool
  | .smc => t.smc = s.smc
  | .mem => t.mem = s.mem
  | .ras => t.ras = s.ras
  | .planes => t.planes = s.planes
  | .comp => t.comp = s.comp
  | .panel => t.panel = s.panel
  | .setup => t.setup = s.setup
  | .store => t.store = s.store
  | .flash => t.flash = s.flash
  | .link => t.link = s.link
  | .readout => t.readout = s.readout

/-- Every block outside a list, and the queue, is unchanged. -/
def onlyTouches (touched : List Block) (s t : State) : Prop :=
  t.pending = s.pending ∧ ∀ b : Block, b ∉ touched → b.same s t

/-- A step ends in the state it began in. -/
def stays (i : Instr) (s : State) : Prop := exec i s = .next s

/-! ## Commands and answers -/

/-- The decoder takes the well-formed command `i`, and `u` is the state with its frame taken. -/
def takes (i : Instr) (s u : State) : Prop := i.wf = true ∧ s.takeFrame i = some u

/-- The response queue of `t` is that of `u` with one response more (10 R188). -/
def answered (type tag : Byte) (code : ResultCode) (data : List Byte) (u t : State) : Prop :=
  t.link.resp = u.link.resp ++ [⟨type, tag, code, data⟩]

/-- The Link Controller of `t` is that of `u` with one response more, and nothing else of it differs (10 R188). -/
def responds (type tag : Byte) (code : ResultCode) (data : List Byte) (u t : State) : Prop :=
  t.link = { u.link with resp := u.link.resp ++ [⟨type, tag, code, data⟩] }

/-- A command is refused at its owner: its one effect is the response, with no data (10 R188, 12 R216). -/
def refusedWith (i : Instr) (type tag : Byte) (code : ResultCode) (s u : State) : Prop :=
  exec i s = .next (u.withLink { u.link with resp := u.link.resp ++ [⟨type, tag, code, []⟩] })

/-- A command is answered OK with data and changes nothing else (10 R188). -/
def onlyAnswers (i : Instr) (type tag : Byte) (data : List Byte) (s u : State) : Prop :=
  exec i s = .next (u.withLink { u.link with resp := u.link.resp ++ [⟨type, tag, .ok, data⟩] })

/-! ## Terms of single rules -/

/-- An event timed at tick `e` leaves the sequencer as it was, but for whether the instant is that tick (02 R17, log 35). -/
def arrivedAt (e : Tick) (s t : State) : Prop :=
  t.trg = { s.trg with begun := s.trg.begun || decide (e = s.trg.tick) }

/-- What words handed one after the other leave of the writer FIFO: those that meet fewer than 4096 entries are appended
(04 R71, R72). -/
def acceptedWords (fifo words : List FifoEntry) : List FifoEntry := fifo ++ words.take (4096 - fifo.length)

/-- The words that the last sample of a group hands, as FIFO entries: for each channel in ascending order, at the ring
position of the group's ordinal (01 R12, 03 R47, 04 R69). `s` is the state before the sample, `held` the codes at its
tick. -/
def handedWords (g : Grouping) (x : Captured) (n : Nat) (held : PerCh (BitVec 10)) (s : State) : List FifoEntry :=
  g.chans.zipIdx.flatMap (fun p =>
    let c := correct (s.activeEntry p.1) (held.get p.1).toNat
    (groupWords g.mode g.decim (Acc.add (s.sp.acc.get p.1) c.1 c.2)).zipIdx.map (fun q =>
      ⟨n * s.pool.capacity + (p.2 * x.segs + s.acq.segIdx) * x.stored
          + (s.acq.ordinal * x.mode.perGroup) % x.stored + q.2, q.1, s.acq.setId, s.acq.segIdx⟩))

/-- The link after a setup change whose own reports and response leave it `l`: a re-arm that fails stops acquisition and
offers its RUNSTATE report behind them (03 R61, 10 R197; log 26). -/
def linkAfterChange (s t : State) (l : Link) : Prop :=
  (s.acq.state = .stopped ∨ t.acq.state ≠ .stopped → t.link = l) ∧
  (s.acq.state ≠ .stopped → t.acq.state = .stopped →
    ∃ code, t.startCheck = some code ∧ t.link = l.offerRunstate (.runstate .stop .stopped .rearmFailed code))

/-- The reports that wait, each FIELD report of a field whose value has changed carrying the new value (08 R158). -/
def updatedFields (s t : State) : List Report :=
  s.link.reports.map (fun r =>
    match r.body with
    | .field id _ => if s.w.val id ≠ t.w.val id then ⟨r.lost, .field id (t.w.val id)⟩ else r
    | _ => r)

/-- The memory words a grant addresses (04 R74). -/
def GrantJob.addrs : GrantJob → List Nat
  | .write es _ => es.map (fun e => e.addr)
  | .draw b _ => b.addrs
  | .readout b _ => b.addrs

/-- Colour `k` of a payload of three bytes a colour: red, green, blue (12 R214). -/
def colourAt (bytes : List Byte) (k : Nat) : Colour :=
  ⟨bytes.getD (3 * k) 0, bytes.getD (3 * k + 1) 0, bytes.getD (3 * k + 2) 0⟩

/-- 07 R130: whether no check refuses a LOAD_ACTION, its values given as the numbers carried. -/
def actionAllowed (control mode action slot field rep click threshold factor : Nat) : Prop :=
  control ≤ 103 ∧ mode ≤ 3 ∧ action ≤ 11 ∧ rep ≤ 1 ∧ click ≤ 1 ∧ (threshold = 0 ∨ 2 ≤ threshold ∧ threshold ≤ 15) ∧
    2 ≤ factor ∧ factor ≤ 10 ∧ (action = 5 → slot ≤ 16) ∧ (9 ≤ action → (catalogue field).isSome = true)

/-- The accumulator of a group's members, each a corrected code with its clip mark (01 R9 to R11). -/
def accOf (members : List (Int × Bool)) : Option Acc := members.foldl (fun a m => some (Acc.add a m.1 m.2)) none

/-- The measurement state of a stage and whether it has matched, after it evaluates samples given by its comparator's output
before and after each and by their ticks; a stage that has matched evaluates no further sample (02 R23, R28). -/
def evaluateAll (st : StageRec) : Measure × Bool → List (Bool × Bool × Tick) → Measure × Bool
  | x, [] => x
  | (m, true), _ => (m, true)
  | (m, false), (old, new, t) :: rest => evaluateAll st (evaluate st m old new t) rest

/-- A sample taken as command from `s` fires: the fire record holds its tick, its group position, the kind and the trigger
group's ordinal, nothing is pending, the sequencer is disabled, the holdoff runs from that tick, and TRIG OUT is high from
the next tick, or on from a pulse that is high at this one, until 8 ticks after it (02 R34 to R36, 03 R49). -/
def firedAs (kind : FireKind) (s t : State) : Prop :=
  t.acq.state = .triggered ∧ t.acq.run = s.acq.run ∧
    (∃ r f, t.acq.seg = some r ∧ r.fire = some f ∧ f.tick = s.trg.tick ∧ f.sub = s.sp.groupPos ∧ f.kind = kind ∧
      f.ordinal = s.acq.ordinal ∧ ∀ c, s.acq.captured = some c → f.origin = ringOrigin c s.acq.ordinal) ∧
    t.trg.enabled = false ∧ t.trg.stage = 0 ∧ t.trg.meas = none ∧ t.trg.timeout = none ∧ t.trg.autoStart = none ∧
    t.trg.autoPending = false ∧ t.trg.forcePending = false ∧ t.trg.holdoff = some (s.trg.tick + s.w.holdoff) ∧
    t.trg.trigOut = some ⟨if s.trg.trigOut.any (fun p => reached s.trg.tick p.rises) = true then s.trg.tick
      else s.trg.tick + 1, s.trg.tick + 9⟩

/-! ## Invariants -/

/-- 08 R146: every field of both setups holds a value within its range. -/
def State.setupsInRange (s : State) : Bool := s.setup.working.inRange && s.setup.shadow.inRange

/-- Every sparse table of a block is in canonical form. -/
def PerCh.all {α : Type} (p : PerCh α) (f : α → Bool) : Bool := f p.ch1 && f p.ch2 && f p.ch3 && f p.ch4

/-- Every sparse table of the state is in canonical form, so equal contents are equal data. -/
def State.canonical (s : State) : Bool :=
  s.mem.wf memDefault && s.flash.wf erasedByte && PerCh.all s.planes (fun p => p.wf cellDefault)
    && s.sp.corr.wf corrDefault && s.pool.bufs.wf bufDefault
    && s.comp.clut.wf black && s.comp.palette.wf black && s.comp.glyphs.wf zeroByte && s.comp.text.wf zeroByte
    && s.comp.rowSets.wf attrDefault
    && s.panel.keys.wf keyDefault && s.panel.encs.wf encDefault && s.panel.actions.wf actionDefault
    && s.panel.leds.wf ledDefault && s.store.slots.wf slotDefault
    && s.setup.working.wf defaultValue && s.setup.shadow.wf defaultValue

/-- 04 R68: no listed word of the sample memory lies beyond its 134 217 728 words. -/
def State.memInside (s : State) : Bool := s.mem.cells.all (fun c => decide (c.1 < Config.memoryWords))

/-- 05 R78: every plane cell holds 0..255. -/
def State.cellsBounded (s : State) : Bool :=
  PerCh.all s.planes (fun p => p.cells.all (fun c => decide (c.2 ≤ 255)))

/-- 06 R101: the phases are those of the frame counter. -/
def State.phasesAgree (s : State) : Bool :=
  decide (s.comp.slow = slowPhase s.comp.frame ∧ s.comp.fast = fastPhase s.comp.frame)

/-- 10 R184: the partial frame holds at most 2054 bytes. -/
def Framer.bounded : Framer → Bool
  | .waiting => true
  | .receiving bs => decide (bs.length ≤ 2054)

/-- 10 R184, R186, R189, R193 and 04 R71: no queue holds more than its places. -/
def State.queuesBounded (s : State) : Bool :=
  decide (s.link.fifo.length ≤ Config.commandFifoDepth)
    && decide (s.link.resp.length + s.reservedPlaces ≤ Config.responseDepth)
    && decide (s.link.reports.length ≤ Config.reportDepth)
    && decide (s.smc.fifo.length ≤ Config.writerFifoDepth) && s.link.framer.bounded

/-- 11 R206: the fetch store has room for the words it holds and those of a wanted grant. -/
def State.fetchBounded (s : State) : Bool :=
  match s.smc.grant with
  | some ⟨_, .readout b true⟩ => decide (s.readout.words.length + b.count ≤ Config.fetchStoreDepth)
  | _ => decide (s.readout.words.length ≤ Config.fetchStoreDepth)

/-- Number of reports that a test holds of. -/
def State.reportCount (s : State) (f : ReportBody → Bool) : Nat := (s.link.reports.filter (fun r => f r.body)).length

/-- Whether a report is an ACQ report. -/
def ReportBody.isAcq : ReportBody → Bool
  | .acq _ _ _ _ _ _ => true
  | _ => false

/-- Whether a report is a RUNSTATE report. -/
def ReportBody.isRunstate : ReportBody → Bool
  | .runstate _ _ _ _ => true
  | _ => false

/-- Whether a report is a FIELD report for an id. -/
def ReportBody.isFieldOf (id : Nat) : ReportBody → Bool
  | .field i _ => decide (i = id)
  | _ => false

/-- 10 R193: at most one ACQ report waits, at most one RUNSTATE report, and at most one FIELD report for each field id. -/
def State.reportsCoalesced (s : State) : Prop :=
  s.reportCount ReportBody.isAcq ≤ 1 ∧ s.reportCount ReportBody.isRunstate ≤ 1 ∧
    ∀ id : Nat, s.reportCount (ReportBody.isFieldOf id) ≤ 1

/-- 03 R40: the run state is STOP exactly while the acquisition state is STOPPED. -/
def State.runAgrees (s : State) : Bool := decide (s.acq.run = .stop ↔ s.acq.state = .stopped)

/-- Whether the acquisition state has a FILLING buffer (03 R40). -/
def AcqState.fills : AcqState → Bool
  | .arming => true
  | .ready => true
  | .triggered => true
  | _ => false

/-- 03 R40, R45, R47, R49: a current buffer, captured values and a segment record are present exactly in ARMING, READY and
TRIGGERED, the fire record in TRIGGERED, and samples are grouped in ARMING and READY. -/
def State.segmentAgrees (s : State) : Bool :=
  decide (s.acq.cur.isSome = s.acq.state.fills) && decide (s.acq.captured.isSome = s.acq.state.fills)
    && decide (s.acq.seg.isSome = s.acq.state.fills)
    && (decide (s.acq.state ≠ .triggered) || s.segmentEntry.isSome)
    && (match s.acq.state with
        | .arming => s.sp.grouping.isSome
        | .ready => s.sp.grouping.isSome
        | .triggered => true
        | _ => s.sp.grouping.isNone)

/-- 02 R22: the sequencer is enabled exactly while the state is READY and no holdoff runs; its stage is less than
TRG.STAGES, and 0 with nothing measured and no stage timeout while it is not enabled. The auto timer and auto-pending belong
to READY in AUTO (02 R31, R32), force-pending to ARMING and READY (02 R33). -/
def State.sequencerAgrees (s : State) : Bool :=
  decide (s.trg.enabled = (decide (s.acq.state = .ready) && s.trg.holdoff.isNone))
    && (if s.trg.enabled then
          decide (s.trg.stage < s.w.stages ∧ s.trg.comps.length = s.w.stages) && s.trg.meas.isSome
        else
          decide (s.trg.stage = 0 ∧ s.trg.comps = [] ∧ s.trg.meas = none ∧ s.trg.timeout = none))
    && (s.trg.autoStart.isNone || (decide (s.acq.state = .ready) && s.w.auto))
    && (!s.trg.autoPending || (decide (s.acq.state = .ready) && s.w.auto))
    && (!s.trg.forcePending || decide (s.acq.state = .ready ∨ s.acq.state = .arming))

/-- The acquisition invariant: the setups in range, and the run state, the segment and the sequencer in agreement. -/
def State.acqInv (s : State) : Bool :=
  s.setupsInRange && s.runAgrees && s.segmentAgrees && s.sequencerAgrees

/-- Whether a buffer state is one of a completed record set (03 R54). -/
def BufState.complete : BufState → Bool
  | .new => true
  | .drawing => true
  | .shown => true
  | _ => false

/-- 03 R53, R54, R57 and 05 R79, 11 R205: B is ACQ.BUFFERS; the completion list holds exactly the buffers in NEW, DRAWING
and SHOWN, each once, and they are exactly those with a descriptor; the FILLING buffer is the current one and the DRAWING
buffer the one drawn; pinned buffers are complete and at most B - 1; a stream's buffer is complete. -/
def State.poolAgrees (s : State) : Bool :=
  let bs := List.range s.pool.count
  decide (s.pool.count = s.w.buffers)
    && decide s.pool.completion.Nodup
    && s.pool.completion.all (fun b => decide (b < s.pool.count))
    && bs.all (fun b => decide (b ∈ s.pool.completion ↔ (s.pool.buf b).state.complete = true))
    && bs.all (fun b => decide ((s.pool.buf b).desc.isSome = (s.pool.buf b).state.complete))
    && bs.all (fun b => !(s.pool.buf b).pinned || (s.pool.buf b).state.complete)
    && bs.all (fun b => decide ((s.pool.buf b).state = .filling ↔ s.acq.cur = some b))
    && bs.all (fun b => decide ((s.pool.buf b).state = .drawing ↔ s.ras.drawing.map (fun d => d.buf) = some b))
    && (match s.acq.cur with
        | some b => decide (b < s.pool.count)
        | none => true)
    && (match s.ras.drawing with
        | some d => decide (d.buf < s.pool.count)
        | none => true)
    && decide (s.pool.pinnedCount < s.pool.count)
    && (match s.readout.stream with
        | some st => decide (st.buf < s.pool.count) && (s.pool.buf st.buf).state.complete
        | none => true)

/-- The pool invariant, with the acquisition invariant it rests on. -/
def State.poolInv (s : State) : Bool := s.acqInv && s.poolAgrees

/-! ## A change of the working setup (08 R154 to R156) -/

/-- A field of a class that `p` picks has another value in the working setup of `t`. -/
def changesClass (p : FieldClass → Prop) (s t : State) : Prop :=
  ∃ id f, catalogue id = some f ∧ p f.cls ∧ s.w.val id ≠ t.w.val id

/-- The sequencer after a change of the working setup. TRG.AUTOTIME reaches a running auto timer whose new duration has
elapsed; TRG.MODE stops the timer and drops auto-pending, or in READY starts the timer at the change (02 R32); a TRIG-class
announcement (`announced`) starts an enabled sequencer afresh at stage 0 (02 R37). -/
def sequencerAfter (announced : Bool) (s t : State) : Trigger :=
  let elapsed := s.trg.autoStart.any (fun x =>
    decide (s.w.autoTime ≠ t.w.autoTime ∧ t.w.autoTime.toNat ≤ (s.lastTick - x).toNat))
  let restarted := announced = true ∧ s.trg.enabled = true
  { s.trg with
    autoStart := if s.w.auto = t.w.auto then (if elapsed = true then none else s.trg.autoStart)
      else if s.w.auto = true then none
      else if s.acq.state = .ready then some s.lastTick
      else if elapsed = true then none else s.trg.autoStart,
    autoPending := if s.w.auto = true ∧ t.w.auto = false then false else s.trg.autoPending || elapsed,
    stage := if restarted then 0 else s.trg.stage,
    comps := if restarted then (List.range t.w.stages).map (fun i => compInit (t.w.stage i) s.sp.codes s.trg.ext)
      else s.trg.comps,
    meas := if restarted then some ⟨none, 0, s.lastTick⟩ else s.trg.meas,
    timeout := if restarted then none else s.trg.timeout }

/-- Where the announcement of a changed setup can act (08 R156), with the queues of its reports and answer: memory, the
Compositor, the Setup Store, the flash and the commands that wait stay. -/
def announcementReach : List Block :=
  [.sp, .trg, .acq, .pool, .smc, .ras, .planes, .panel, .setup, .link, .readout]

/-- A TRIG-class change is announced to the sequencer (02 R37). -/
def trigAnnounced (s t : State) : Prop := t.trg = sequencerAfter true s t

/-- The sequencer `x` as STOP and an ACQ-class change leave it: not enabled, with nothing pending and no auto timer; a running
holdoff and TRIG OUT's pulse go on (02 R22, R38; log 44 for `halted`). -/
def sequencerStopped (x : Trigger) : Trigger :=
  { x with
    halted := true, enabled := false, stage := 0, comps := [], meas := none, timeout := none, autoStart := none,
    autoPending := false, forcePending := false }

/-- The sequencer `x` at an entry to READY under the working setup `w`, `s` being the state before it: the auto timer starts in
AUTO, and where no holdoff runs the sequencer is enabled at stage 0, its comparators initialised from the most recent sample
(02 R21 to R23, R31, R38). -/
def readyEntered (w : Setup) (s : State) (x : Trigger) : Trigger :=
  let timed : Trigger := { x with autoStart := if w.auto = true then some s.lastTick else none }
  if x.holdoff ≠ none then timed
  else { timed with
    enabled := true, stage := 0, timeout := none, meas := some ⟨none, 0, s.lastTick⟩,
    comps := (List.range w.stages).map (fun i => compInit (w.stage i) s.sp.codes s.trg.ext) }

/-- The sequencer after an ACQ-class change outside STOPPED: as STOP leaves it, and where the re-armed state is READY at once,
entered there (02 R31, R38, 03 R48). -/
def sequencerRearmed (s t : State) : Trigger :=
  let off := sequencerStopped (sequencerAfter false s t)
  if t.acq.state = .ready then readyEntered t.w s off else off

/-- The Sample Path `p` with no segment being filled: the group in progress and the clip count are gone (01 R8, R13, 03 R44). -/
def groupingClosed (p : SamplePath) : SamplePath :=
  { p with grouping := none, groupPos := 0, acc := PerCh.const none, clipCount := 0 }

/-- The Sample Path `p` as a segment enters ARMING under the working setup `w` (01 R8, R13, 03 R47). -/
def groupingOpened (w : Setup) (p : SamplePath) : SamplePath :=
  { p with
    grouping := some ⟨w.mode, w.decim, w.enabledChans⟩, groupPos := 0, acc := PerCh.const none, clipCount := 0 }

/-- What the entry of a segment to ARMING leaves of the Sample Path and the sequencer: grouping opens, and where the pretrigger
size is 0 the sequencer is entered at READY at once (03 R47, R48). -/
def segmentBegun (pre : Nat) (s t : State) : Prop :=
  t.sp = groupingOpened s.w s.sp ∧ t.trg = if pre = 0 then readyEntered s.w s s.trg else s.trg

/-- The Acquisition Controller's record `x` with the set in progress discarded (03 R44, R60 step 1; log 15 for the segment index,
the fill count and the ordinal, which stay). -/
def setDiscarded (x : Acq) : Acq := { x with cur := none, seg := none, captured := none, table := [] }

/-- What STOP in RUN or SINGLE does (03 R44, 02 R38): the FILLING buffer is FREE, every other buffer and the completion list
stay, the segment and its group are discarded, and the sequencer is stopped. -/
def acquisitionStopped (s t : State) : Prop :=
  t.acq = { setDiscarded s.acq with run := .stop, state := .stopped } ∧ t.sp = groupingClosed s.sp ∧
  t.trg = sequencerStopped s.trg ∧ t.pool.count = s.pool.count ∧ t.pool.completion = s.pool.completion ∧
  ∀ b : Nat, t.pool.buf b = if s.acq.cur = some b then ⟨.free, false, false, none⟩ else s.pool.buf b

/-- A stream ended before its last record index (11 R209, R210): its ready frame and its fetched words are discarded, a grant of
its own is no longer wanted, and its last frame carries no words, the status, the collided mark and the index after the last one
sent; the last frame of an earlier stream, still ready, keeps its words and goes first (log 20). -/
def streamEnded (status : DataStatus) (st : Stream) (s t : State) : Prop :=
  let kept := s.readout.frames.filter (fun f => decide (f.status ≠ .more))
  t.readout = { stream := none, frames := kept ++ [⟨st.tag, st.sent, 0, status, st.collided, []⟩],
                words := s.readout.words.take (kept.map (fun f => f.words.length)).sum } ∧
  ∀ (e : Tick) (b : Burst) (k : Bool), s.smc.grant = some ⟨e, .readout b k⟩ → t.smc.grant = some ⟨e, .readout b false⟩

/-- What the selection of buffer `b` leaves of the memory controller and the Readout Engine: a stream that reads the record set
recycled ends with GONE, and nothing else of them changes (03 R58, 11 R210). -/
def streamAfterSelection (b : Nat) (s t : State) : Prop :=
  t.smc.fifo = s.smc.fifo ∧
  (∀ st : Stream, s.readout.stream = some st → st.buf = b → (s.pool.buf b).state ≠ .free → streamEnded .gone st s t) ∧
  ((∀ (e : Tick) (x : Burst) (k : Bool), s.smc.grant ≠ some ⟨e, .readout x k⟩) → t.smc.grant = s.smc.grant) ∧
  ((∀ st : Stream, s.readout.stream = some st → st.buf = b → (s.pool.buf b).state = .free) →
    t.smc = s.smc ∧ t.readout = s.readout)

/-- Buffer `b` is selected and armed: it becomes FILLING, the values that govern the record set are captured, and segment 0 begins
in ARMING, or in READY where the pretrigger is 0 (03 R45, R47, R48, R58). -/
def armedIn (b : Nat) (s t : State) : Prop :=
  t.pool = { s.pool.setBuf b ⟨.filling, false, false, none⟩ with completion := s.pool.completion.erase b } ∧
  t.acq = { s.acq with
    run := t.acq.run, state := if s.w.pre = 0 then .ready else .arming, cur := some b, seg := some ⟨false, none⟩,
    captured := some s.w.capture, table := [], segIdx := 0, fill := 0, ordinal := 0, setId := s.acq.setId + 1,
    skip := if (s.pool.buf b).state = .new then min (s.acq.skip + 1) 255 else s.acq.skip } ∧
  segmentBegun s.w.pre s t ∧ streamAfterSelection b s t

/-- A start with the checks passed (03 R43, R58): the buffer chosen is armed, and with none the state is WAIT_BUFFER. -/
def startedSet (s t : State) : Prop :=
  (∀ b : Nat, s.pool.choose = some b → armedIn b s t) ∧
  (s.pool.choose = none →
    t.acq = { setDiscarded s.acq with run := t.acq.run, state := .waitBuffer } ∧
    t.pool = s.pool ∧ t.sp = s.sp ∧ t.trg = s.trg ∧ t.smc = s.smc ∧ t.readout = s.readout)

/-- The stream in progress at an ACQ-class change: it ends with GONE where the pool is rebuilt and where the re-arm recycles its
buffer, and goes on otherwise (03 R58, R64, 11 R210). The re-arm is stated for a stream that reads a complete buffer, which is
not the FILLING one, as every stream does (`State.poolInv`, 11 R204). -/
def streamAfterAcq (s t : State) : Prop :=
  let kept := t.readout = s.readout ∧
    ∀ (e : Tick) (b : Burst) (k : Bool), s.smc.grant = some ⟨e, .readout b k⟩ → t.smc.grant = s.smc.grant
  t.smc.fifo = s.smc.fifo ∧ (s.readout.stream = none → kept) ∧
  ∀ st : Stream, s.readout.stream = some st →
    (s.w.val 0x06 ≠ t.w.val 0x06 → streamEnded .gone st s t) ∧
    (s.w.val 0x06 = t.w.val 0x06 → (s.pool.buf st.buf).state.complete = true → s.acq.cur ≠ some st.buf →
      let recycled := s.acq.state ≠ .stopped ∧ t.acq.cur = some st.buf
      (recycled → streamEnded .gone st s t) ∧ (¬recycled → kept))

/-- The grant in progress at an ACQ-class change, where it is no READOUT grant: one of the drawing abandoned is no longer wanted,
and any other goes on (04 R76, 05 R96). -/
def drawGrantAfterAcq (s t : State) : Prop :=
  (s.smc.grant = none → t.smc.grant = none) ∧
  (∀ (e : Tick) (es : List FifoEntry) (k : Bool), s.smc.grant = some ⟨e, .write es k⟩ → t.smc.grant = s.smc.grant) ∧
  ∀ (e : Tick) (b : Burst) (k : Bool), s.smc.grant = some ⟨e, .draw b k⟩ →
    t.smc.grant = some ⟨e, .draw b (if s.ras.drawing = none then k else false)⟩

/-- What an ACQ-class change does (03 R60 to R64, 05 R94, R96): the picture is discarded; NEW buffers become SHOWN and stale,
or a change of ACQ.BUFFERS rebuilds the pool; in STOPPED the acquisition stays, and in any other state the start checks of the
new setup re-arm it or stop it. -/
def acqAnnounced (s t : State) : Prop :=
  t.ras.drawing = none ∧ (∀ (c : Ch) (x r : Nat), t.cell c x r = 0) ∧ streamAfterAcq s t ∧
  drawGrantAfterAcq s t ∧
  (s.w.val 0x06 = t.w.val 0x06 → t.pool.count = s.pool.count ∧
    t.pool.completion = (if s.acq.state = .stopped then s.pool.completion
      else t.acq.cur.elim s.pool.completion s.pool.completion.erase) ∧
    (s.poolAgrees = true → ∀ b < t.pool.count,
      (t.pool.buf b).state ≠ .new ∧ (t.pool.buf b).state ≠ .drawing ∧
      (t.acq.cur ≠ some b → s.acq.cur = some b → s.acq.state ≠ .stopped →
        t.pool.buf b = ⟨.free, false, false, none⟩) ∧
      (t.acq.cur ≠ some b → s.acq.cur ≠ some b →
        ((s.pool.buf b).state = .new → t.pool.buf b = { s.pool.buf b with
          state := .shown, stale := true, desc := (s.pool.buf b).desc.map (fun d => { d with stale := true }) }) ∧
        ((s.pool.buf b).state = .drawing → t.pool.buf b = { s.pool.buf b with state := .shown }) ∧
        ((s.pool.buf b).state ≠ .new → (s.pool.buf b).state ≠ .drawing → t.pool.buf b = s.pool.buf b)))) ∧
  (s.w.val 0x06 ≠ t.w.val 0x06 → t.pool.count = t.w.buffers ∧ t.pool.completion = [] ∧
    ∀ b < t.pool.count, t.pool.buf b =
      if s.acq.state ≠ .stopped ∧ t.acq.cur = some b then ⟨.filling, false, false, none⟩
      else ⟨.free, false, false, none⟩) ∧
  (s.acq.state = .stopped → t.acq = s.acq ∧ t.sp = s.sp ∧ t.trg = sequencerAfter false s t) ∧
  (s.acq.state ≠ .stopped → t.trg = sequencerRearmed s t ∧
    (∀ code, t.startCheck = some code →
      t.acq = { setDiscarded s.acq with run := .stop, state := .stopped } ∧ t.sp = groupingClosed s.sp) ∧
    (t.startCheck = none →
      (t.acq = { setDiscarded s.acq with state := .waitBuffer } ∧ t.pool.choose = none ∧ t.sp = groupingClosed s.sp ∨
       ∃ n, t.acq = { s.acq with
           state := if t.w.pre = 0 then .ready else .arming, cur := some n, seg := some ⟨false, none⟩,
           captured := some t.w.capture, table := [], segIdx := 0, fill := 0, ordinal := 0, setId := s.acq.setId + 1,
           skip := t.acq.skip } ∧
         (s.poolAgrees = true → t.acq.skip = s.acq.skip) ∧ t.sp = groupingOpened t.w s.sp ∧
         t.pool.buf n = ⟨.filling, false, false, none⟩)))

/-- The classes of the fields that differ are announced, each once: ACQ, which includes TRIG, or else TRIG; and DRAW, which
clears the planes that its fields name (08 R156). -/
def setupAnnounced (s t : State) : Prop :=
  (changesClass (fun x => x = .acq) s t → acqAnnounced s t) ∧
  (¬changesClass (fun x => x = .acq) s t →
    t.acq = s.acq ∧ t.sp = s.sp ∧ t.pool = s.pool ∧ t.ras = s.ras ∧ t.smc = s.smc ∧ t.readout = s.readout ∧
    (changesClass (fun x => x = .trig) s t → trigAnnounced s t) ∧
    (¬changesClass (fun x => x = .trig) s t → t.trg = sequencerAfter false s t) ∧
    ∀ c : Ch,
      let named := changesClass (fun x => ∃ planes, x = .draw planes ∧ c ∈ planes) s t
      (named → ∀ x r : Nat, t.cell c x r = 0) ∧ (¬named → ∀ x r : Nat, t.cell c x r = s.cell c x r))

/-- The idle timer after a change of the working setup: one of DSP.IDLE restarts it from the change or stops it for 0, and
starts none in the dim state (07 R139; log 43 for one that runs there). -/
def idleAfter (s t : State) : Option Tick :=
  if s.w.idleMinutes = t.w.idleMinutes then s.panel.idle
  else if t.w.idleMinutes = 0 then none
  else if s.comp.dim = true then s.panel.idle
  else some (s.lastTick + BitVec.ofNat 48 (t.w.idleMinutes * 60000000000))

/-- The panel after a host change: auto-remote where a field differs (07 R138), and the idle timer (07 R139). -/
def hostPanel (s t : State) : Panel :=
  { s.panel with
    access := if fieldIds.any (fun id => decide (s.w.val id ≠ t.w.val id)) = true ∧ t.w.autoRemote = true ∧
        s.panel.access = .local then .remote
      else s.panel.access,
    idle := idleAfter s t }

/-- The panel after an event that is no wake is handled and leaves the working setup `w`: a PRESS may click and become the
repeat key, a RELEASE ends its own key's repeat, and every event but a REPEAT restarts the idle timer, as a change of DSP.IDLE
does (07 R124, R125, R131, R139, R143; from the handling, logs 38, 41, 45). -/
def handledPanel (e : PanelEvent) (rest : List PanelEvent) (w : Setup) (s : State) : Panel :=
  let a := s.panel.action e.code
  { s.panel with
    events := rest,
    click := if e.kind = .press ∧ a.mode ≠ .off ∧ a.click = true ∧ s.w.click = true ∧ s.panel.alarmEnd = none then
        some (s.lastTick + 2000000#48)
      else s.panel.click,
    repeatKey := if e.kind = .press ∧ a.mode ≠ .off ∧ a.rep = true then some (e.code, s.lastTick + 400000000#48)
      else if e.kind = .release ∧ s.panel.repeatKey.map (fun k => k.1) = some e.code then none
      else s.panel.repeatKey,
    idle := if e.kind = .repeat_ ∧ s.w.idleMinutes = w.idleMinutes then s.panel.idle
      else if w.idleMinutes = 0 then none
      else some (s.lastTick + BitVec.ofNat 48 (w.idleMinutes * 60000000000)) }

/-- Whether an event calls for a local action under an entry (07 R131): a PRESS for every action but NONE and ADJUST, a TOGGLE only
of a two-valued field (07 R135); a REPEAT for STEP; a TURN for ADJUST; a RELEASE for none. -/
def callsAction (e : PanelEvent) (a : ActionEntry) : Bool :=
  decide (e.kind = .press ∧ a.action ≠ .none ∧ a.action ≠ .adjust ∧
      (a.action = .toggle → (a.field.bind catalogue).map (fun f => f.kind) = some (.enumerated 2)) ∨
    e.kind = .repeat_ ∧ a.action = .step ∨ e.kind = .turn ∧ a.action = .adjust)

/-- What one event, at the front of those that wait, is as a command: a PRESS, RELEASE or REPEAT of a key, or a TURN. -/
def isEvent (i : Instr) (e : PanelEvent) : Prop :=
  e.kind = .press ∧ e.n = 0 ∧ e.code < 96 ∧ i = .press e.code ∨
  e.kind = .release ∧ e.n = 0 ∧ e.code < 96 ∧ i = .release e.code ∨
  e.kind = .repeat_ ∧ e.n = 0 ∧ e.code < 96 ∧ i = .repeatKey e.code ∨
  e.kind = .turn ∧ 96 ≤ e.code ∧ e.code < 104 ∧ i = .turn (e.code - 96) e.n ∧ -127 ≤ e.n ∧ e.n ≤ 127 ∧ e.n ≠ 0

end Sys2Proof.Machine
end

