-- ==== Sys2Proof/Certificates/Slice0/Obligations.lean ====
section
/-!
DEFINITION. The statements for the provers. Each docstring names the rules of spec/ a statement formalises, or the log
entry where it states a choice of the model.
-/

open Sys2Proof Sys2Proof.Machine

/-! ## The machine -/

/-- One step is `exec` of the command at the front of the queue on the state with the queue's rest. -/
def Obligations.StepRunsTheFrontCommand : Prop :=
  ∀ (i : Instr) (rest : List Instr) (s : State), s.pending = i :: rest →
    step s = exec i (s.withPending rest)

/-- Every command of the table runs: well-formed operands give a next state with the same queue (log 1), or the one
fault of a word beyond the sample memory, and ill-formed operands are refused (log 21). The fault is raised by the three
grant ends alone, where the grant in progress is of their kind and due and addresses such a word (04 R68, R74). -/
def Obligations.WellFormedCommandsRun : Prop :=
  ∀ (i : Instr) (s : State),
    (i.wf = false → exec i s = .refused .illFormed) ∧
    (i.wf = true → (∃ t, exec i s = .next t ∧ t.pending = s.pending) ∨
      exec i s = .fault .noSuchWord ∧
        ∃ g, s.smc.grant = some g ∧ s.due g.ends = true ∧ (∃ a ∈ g.job.addrs, Config.memoryWords ≤ a) ∧
          (match g.job with
           | .write _ _ => i = .acqWriteGrantEnd
           | .draw _ _ => i = .drawReadGrantEnd
           | .readout _ _ => i = .readoutGrantEnd))

/-- The decoder takes a command from the front of the command FIFO, and only when it waits on no command, the responses
queued and the places reserved number fewer than 16, and no deferred RESET is due at that instant (10 R187, R189; log
18); a frame so taken leaves the FIFO and nothing else changes. The frame of a command that meets an empty FIFO and a
receiver that can accept it is taken as it arrives (log 4). A frame whose TYPE is no command's is answered BADCMD and
one whose LENGTH is not permitted BADLEN, with its own type and tag, and nothing else changes (10 R187). -/
def Obligations.DecoderTakesAndChecksFrames : Prop :=
  (∀ (i : Instr) (s : State),
    (∀ (f : Frame) (rest : List Frame), s.link.fifo = f :: rest →
      s.takeFrame i =
        if s.link.waiting = none ∧ s.link.resp.length + s.store.deferred.length < 16 ∧ s.resetDue = false
            ∧ decodeFrame f = i then
          some (s.withLink { s.link with fifo := rest })
        else none) ∧
    (s.link.fifo = [] →
      s.takeFrame i =
        if s.link.waiting = none ∧ s.link.resp.length + s.store.deferred.length < 16 ∧ s.resetDue = false
            ∧ s.link.aligned = true ∧ s.link.framer = .waiting then
          some s
        else none)) ∧
  (∀ (f : Frame) (s u : State),
    (takes (.unknownType f) s u → refusedWith (.unknownType f) f.type f.tag .badcmd s u) ∧
    (takes (.badlen f) s u → refusedWith (.badlen f) f.type f.tag .badlen s u))

/-! ## Encodings -/

/-- A host command of well-formed operands is carried by a frame of at most 2048 payload bytes, which the decoder reads
as that command again; and what the decoder reads from any frame of at most 2048 payload bytes is well formed and is
carried by that frame (10 R187, 12 R215). -/
def Obligations.CommandFramesRoundTrip : Prop :=
  (∀ (i : Instr) (f : Frame), i.wf = true → frameOf i = some f → f.payload.length ≤ 2048 ∧ decodeFrame f = i) ∧
  (∀ f : Frame, f.payload.length ≤ 2048 → (decodeFrame f).wf = true ∧ frameOf (decodeFrame f) = some f)

/-- The bytes of a sent frame of at most 2048 payload bytes pass the four checks of 10 R185 and hold its TYPE, TAG and
payload; and bytes that pass them are those of the frame they hold (10 R185, 12 R215). -/
def Obligations.LinkFramesRoundTrip : Prop :=
  (∀ (type tag : Byte) (payload : List Byte), payload.length ≤ 2048 →
    goodFrame (frameBytes type tag payload) = some ⟨type, tag, payload⟩) ∧
  (∀ (bs : List Byte) (f : Frame), goodFrame bs = some f →
    f.payload.length ≤ 2048 ∧ frameBytes f.type f.tag f.payload = bs)

/-- A setup that SAVE programs reads back whole: from a canonical setup within its ranges and a name of 16 valid
characters, VERIFY's comparison of the programmed sector succeeds, the sector classifies VALID with that name, and the
placement of its record gives the same value of every field with nothing clamped or snapped (08 R160, 09 R164, R168, 12
R219). -/
def Obligations.SavedSetupsReadBack : Prop :=
  ∀ (w : Write) (f : Table Byte), w.op = .save → 1 ≤ w.slot → w.slot ≤ 16 → w.snapshot.inRange = true →
    w.name.length = 16 → w.name.all nameChar = true →
    let g := programSector (eraseSector f w.slot) w.slot w.bytes
    w.bytes.length = 836 ∧ w.verified g = true ∧ slotOfRecord (slotBytes g w.slot) = ⟨.valid, w.name⟩ ∧
      ∃ x : Setup, readPlacement g w.slot = some (x, 0) ∧ ∀ id ∈ fieldIds, x.val id = w.snapshot.val id

/-! ## Invariants and resets -/

/-- Every step keeps every field of the working setup and of the shadow within its catalogue range (08 R146). -/
def Obligations.SetupsStayInRange : Prop :=
  ∀ s t : State, s.setupsInRange = true → step s = .next t → t.setupsInRange = true

/-- Every step keeps every sparse table in its canonical form, so that equal contents are equal data (logs 8, 9). -/
def Obligations.TablesStayCanonical : Prop :=
  ∀ s t : State, s.canonical = true → step s = .next t → t.canonical = true

/-- Every step keeps the sample memory within its 134 217 728 words (04 R68), every plane cell within 0..255 (05 R78),
the blink phases those of the frame counter (06 R101), the partial frame within 2054 bytes (10 R184), the command FIFO
within 8 frames, the responses and reserved places within 16, the report queue within 32, the writer FIFO within 4096
words (10 R186, R189, R193, 04 R71), and the fetch store within 8192 words, those of a wanted READOUT grant included (11
R206). -/
def Obligations.BoundsAreKept : Prop :=
  (∀ s t : State, step s = .next t →
    (s.memInside = true → t.memInside = true) ∧ (s.cellsBounded = true → t.cellsBounded = true) ∧
      (s.phasesAgree = true → t.phasesAgree = true)) ∧
  (∀ s t : State, s.queuesBounded = true → step s = .next t → t.queuesBounded = true) ∧
  (∀ s t : State, s.fetchBounded = true → step s = .next t → t.fetchBounded = true)

/-- Every step keeps at most one ACQ report, at most one RUNSTATE report and at most one FIELD report of each id waiting
(10 R193). -/
def Obligations.ReportsStayCoalesced : Prop :=
  ∀ s t : State, s.reportsCoalesced → step s = .next t → t.reportsCoalesced

/-- Every step keeps the acquisition invariant: the run state is STOP exactly in STOPPED, a segment's records are
present exactly in the states that fill, and the sequencer is enabled exactly in READY with no holdoff (03 R40, 02 R22).
-/
def Obligations.AcquisitionStaysInAgreement : Prop :=
  ∀ s t : State, s.acqInv = true → step s = .next t → t.acqInv = true

/-- Every step keeps the pool invariant: B is ACQ.BUFFERS, and the completion list, the descriptors, the pins, the
FILLING and DRAWING buffers and the stream agree with the buffer states (03 R53, R54, R57). -/
def Obligations.PoolStaysInAgreement : Prop :=
  ∀ s t : State, s.poolInv = true → step s = .next t → t.poolInv = true

/-- Values the rules give for either reset: no sample taken, STOP and STOPPED, sequence number 1, every buffer FREE,
planes 0, overlay empty, panel LOCAL, the default setup in the working setup, and in the shadow by the model's choice
(log 33: no rule gives the shadow before power-on recall), STARTING, empty queues (01 R15, 02 R39, 03 R67, 04 R77, 05
R98, 06 R121, 07 R145, 08 R163, 09 R182, 10 R198, 11 R213); and this state meets every invariant that a statement says
every step keeps. -/
def Obligations.ResetMeetsTheRulesAndTheInvariants : Prop :=
  (let s := State.reset
  (∀ (c : Ch) (r : Nat), s.sp.entry c r = ⟨512, 4096, false⟩) ∧ (∀ c : Ch, s.sp.held.get c = 512) ∧
    (∀ c : Ch, s.sp.acc.get c = none) ∧ s.sp.groupPos = 0 ∧ s.sp.clipCount = 0 ∧ s.sp.grouping = none ∧
    s.trg.tick = 0 ∧ s.trg.enabled = false ∧ s.trg.stage = 0 ∧ s.trg.holdoff = none ∧ s.trg.autoPending = false ∧
    s.trg.forcePending = false ∧ s.trg.ext = false ∧ s.trg.extCount = 0 ∧ s.trigOutHigh = false ∧
    s.acq.run = .stop ∧ s.acq.state = .stopped ∧ s.acq.nextSeq = 1 ∧ s.acq.skip = 0 ∧
    (∀ b : Nat, s.pool.buf b = ⟨.free, false, false, none⟩) ∧ s.pool.completion = [] ∧ s.pool.count = s.w.buffers ∧
    s.smc.fifo = [] ∧ s.ras.drawing = none ∧ (∀ (c : Ch) (x r : Nat), s.cell c x r = 0) ∧
    s.comp.frame = 0 ∧ s.comp.slow = true ∧ s.comp.fast = true ∧ s.comp.dim = false ∧ s.comp.cursor = ⟨false, 0, 0⟩ ∧
    (∀ R C : Nat, s.comp.codeAt R C = 0) ∧ (∀ (c : Ch) (b : Nat), s.comp.clutColour c b = ⟨0, 0, 0⟩) ∧
    (∀ i : Nat, s.comp.paletteColour i = ⟨0, 0, 0⟩) ∧
    (∀ k : Nat, s.panel.key k = ⟨false, 0, false⟩) ∧
    (∀ k : Nat, s.panel.action k = ⟨.off, .none, none, none, none, false, false, 0, 2⟩) ∧
    (∀ i : Nat, s.panel.led i = ⟨.direct, .off, .low⟩) ∧ s.panel.access = .local ∧ s.panel.alarm = false ∧
    s.beep = false ∧ s.panel.idle = some (BitVec.ofNat 48 (s.w.idleMinutes * 60000000000)) ∧
    (∀ id : Nat, s.setup.working.val id = defaultValue id ∧ s.setup.shadow.val id = defaultValue id) ∧
    s.store.activity = .starting ∧ s.store.write = none ∧ s.link.fifo = [] ∧ s.link.resp = [] ∧ s.link.reports = [] ∧
    s.link.lost = false ∧ s.link.aligned = false ∧ s.link.waiting = none ∧ s.readout.stream = none ∧
    s.readout.frames = [] ∧ s.readout.words = []) ∧
  (State.reset.setupsInRange = true ∧ State.reset.canonical = true ∧ State.reset.memInside = true ∧
    State.reset.cellsBounded = true ∧ State.reset.phasesAgree = true ∧ State.reset.queuesBounded = true ∧
    State.reset.fetchBounded = true ∧ State.reset.reportsCoalesced ∧ State.reset.acqInv = true ∧
    State.reset.poolInv = true)

/-- POWER_ON_RESET sets every block to its value after power-on reset; the sample memory keeps its contents, the flash
keeps its own but for what the operand says the outside world has changed (log 8), and a grant in progress runs on, its
entries gone from the FIFO or its words no longer wanted (09 R178, 04 R70, R77; log 13). -/
def Obligations.PowerOnResetKeepsTheMemories : Prop :=
  ∀ (upset : Upset) (s : State), upsetWf upset = true →
    ∃ t, exec (.powerOnReset upset) s = .next t ∧
      t = { State.reset with smc := t.smc, mem := s.mem, flash := (s.upsetFlash upset).flash, pending := s.pending } ∧
      t.smc.fifo = [] ∧ (s.smc.grant = none → t.smc.grant = none) ∧
      (∀ g : Grant, s.smc.grant = some g → ∃ h, t.smc.grant = some h ∧ h.ends - t.trg.tick = g.ends - s.trg.tick ∧
        h.job = (match g.job with
          | .write es _ => .write es false
          | .draw b _ => .draw b false
          | .readout b _ => .readout b false))

/-- The RESET command, taken at once in IDLE and STARTING and once what deferred it has ended, sets every block as
power-on reset does, dropping the panel events that wait (log 46), but keeps the correction table, the CLUT, the
palette, the glyph RAM, the action table and the LED table, the flash, the sample memory, the alignment (log 12), the
responses waiting and the frame in transmission, which falls free as many ticks after the reset as it was to; the
running disparities of both lanes are kept too, and the tick that has begun is the new tick 0 (the model's choices: logs
36, 35); a grant in progress runs on likewise, its entries gone from the FIFO or its words no longer wanted (04 R77; log
13 for the tick it ends); then one response OK enters for each RESET joined, marked where a store write deferred it (10
R191, R199, 01 R15, 06 R121, 07 R145). Taken in READING or WRITING it is deferred and joins those already deferred: its
place in the response queue stays reserved, and nothing else changes (09 R177, 10 R189). -/
def Obligations.CommandResetKeepsTheTables : Prop :=
  (∀ (tag : Byte) (s u : State), ∀ x ∈ [(Instr.reset tag, [tag], false), (Instr.resetTaken, u.store.deferred, u.store.deferredByWrite)],
    (x.1 = .reset tag → takes (.reset tag) s u ∧ (u.store.activity = .idle ∨ u.store.activity = .starting)) →
    (x.1 = .resetTaken → s = u ∧ u.store.activity = .idle ∧ u.store.deferred ≠ []) →
    ∃ t, exec x.1 s = .next t ∧
      t = { State.reset with
        sp := t.sp, trg := { Trigger.reset with begun := u.trg.begun }, smc := t.smc, mem := u.mem, comp := t.comp, panel := t.panel,
        store := { Store.reset with resetKind := .command }, flash := u.flash, link := t.link, pending := u.pending } ∧
      t.sp = { SamplePath.reset with corr := u.sp.corr } ∧ t.smc.fifo = [] ∧
      (u.smc.grant = none → t.smc.grant = none) ∧
      (∀ g : Grant, u.smc.grant = some g → ∃ h, t.smc.grant = some h ∧ h.ends - t.trg.tick = g.ends - u.trg.tick ∧
        h.job = (match g.job with
          | .write es _ => .write es false
          | .draw b _ => .draw b false
          | .readout b _ => .readout b false)) ∧
      t.comp = { Compositor.reset with clut := u.comp.clut, palette := u.comp.palette, glyphs := u.comp.glyphs } ∧
      t.panel = { Panel.reset with actions := u.panel.actions, leds := u.panel.leds } ∧
      t.link = { Link.reset with
        aligned := u.link.aligned, rxDisparity := u.link.rxDisparity, lane := t.link.lane,
        txDisparity := u.link.txDisparity, idleFrom := t.link.idleFrom,
        resp := u.link.resp ++ x.2.1.map (fun g => ⟨0x02, g, .ok, [if x.2.2 = true then 1 else 0]⟩) } ∧
      t.link.idleFrom - t.trg.tick = u.link.idleFrom - u.trg.tick ∧
      t.link.lane.map (fun l => (l.bytes, l.disparity, l.ends - t.trg.tick)) =
        u.link.lane.map (fun l => (l.bytes, l.disparity, l.ends - u.trg.tick))) ∧
  (∀ (tag : Byte) (s u : State), takes (.reset tag) s u →
    u.store.activity = .reading ∨ u.store.activity = .writing →
    ∃ t, exec (.reset tag) s = .next t ∧ onlyTouches [.store] u t ∧
      t.store = { u.store with deferred := u.store.deferred ++ [tag],
                               deferredByWrite := decide (u.store.activity = .writing) } ∧
      t.reservedPlaces = u.reservedPlaces + 1)

/-! ## Samples and the trigger -/

/-- R5: a raw code r is corrected with zero z and gain g in four exact integer steps, whose results lie in the ranges
the rule gives. -/
def Obligations.CorrectionRoundsHalfAwayFromZero : Prop :=
  ∀ (e : CorrEntry) (r : Nat), r ≤ 1023 → e.zero ≤ 1023 → e.gain ≤ 8191 →
    let a : Int := (r : Int) - e.zero
    let q : Nat := a.natAbs * e.gain
    let m : Nat := (q + 2048) / 4096
    let c0 := correctedRaw e r
    (-1023 ≤ a) ∧ a ≤ 1023 ∧ q ≤ 8379393 ∧ m ≤ 2046 ∧ (0 ≤ a → c0 = m) ∧ (a < 0 → c0 = -(m : Int)) ∧
      -2046 ≤ c0 ∧ c0 ≤ 2046 ∧
      2 * (4096 * c0 - a * e.gain).natAbs ≤ 4096 ∧
      (2 * (4096 * c0 - a * e.gain).natAbs = 4096 → (a * e.gain).natAbs < (4096 * c0).natAbs)

/-- R11: in HIRES each group yields one word, the mean of its members rounded half away from zero, its CLIP bit set if
any member was clipped; the mean lies within -512..+511, the sum within 512 D in magnitude, and L = N. -/
def Obligations.HiresWordsHoldTheMean : Prop :=
  ∀ (members : List (Int × Bool)) (w : Setup), 1 ≤ members.length → members.length ≤ 1000000 →
    (∀ m ∈ members, -512 ≤ m.1 ∧ m.1 ≤ 511) →
    let d := members.length
    let s := (members.map (fun m => m.1)).sum
    ∃ a word, accOf members = some a ∧ groupWords .hires d a = [word] ∧ a.sum = s ∧
      (wordCode word).natAbs = (2 * s.natAbs + d) / (2 * d) ∧ (0 < s → 0 ≤ wordCode word) ∧
      (s < 0 → wordCode word ≤ 0) ∧ (s = 0 → wordCode word = 0) ∧
      word.msb = members.any (fun m => m.2) ∧ -512 ≤ wordCode word ∧ wordCode word ≤ 511 ∧
      -512 * (d : Int) ≤ s ∧ s ≤ 511 * (d : Int) ∧ s.natAbs ≤ 512000000 ∧
      (w.mode = .hires → w.stored = w.length) ∧
      (∀ m, members = [m] → wordCode word = m.1 ∧ word.msb = m.2)

/-- In SAMPLE a group yields the word of its member 0. In PEAK it yields the minimum and then the maximum, each with its
CLIP bit set exactly if a member of that code was clipped, and L = 2N (01 R9, R10). -/
def Obligations.SampleAndPeakWordsFollowTheGroup : Prop :=
  ∀ (m0 : Int × Bool) (rest : List (Int × Bool)) (w : Setup),
    (∀ m ∈ m0 :: rest, -512 ≤ m.1 ∧ m.1 ≤ 511) →
    ∃ a word lo hi, accOf (m0 :: rest) = some a ∧ groupWords .sample (rest.length + 1) a = [word] ∧
      wordCode word = m0.1 ∧ word.msb = m0.2 ∧ groupWords .peak (rest.length + 1) a = [lo, hi] ∧
      (∀ m ∈ m0 :: rest, wordCode lo ≤ m.1 ∧ m.1 ≤ wordCode hi) ∧
      (∃ m ∈ m0 :: rest, m.1 = wordCode lo) ∧ (∃ m ∈ m0 :: rest, m.1 = wordCode hi) ∧
      (lo.msb = true ↔ ∃ m ∈ m0 :: rest, m.1 = wordCode lo ∧ m.2 = true) ∧
      (hi.msb = true ↔ ∃ m ∈ m0 :: rest, m.1 = wordCode hi ∧ m.2 = true) ∧
      (w.mode = .sample → w.stored = w.length) ∧ (w.mode = .peak → w.stored = 2 * w.length)

/-- SAMPLE in every state: the tick counter rises by one, modulo 2^48; a port without its strobe gives its held code;
each code is corrected with its channel's active entry; the EXT pin's third consecutive opposite reading changes the
conditioned value (01 R1, R2, R7, 02 R16, R20). Only the Sample Path, the sequencer, the acquisition and the writer FIFO
change, and with them the sample memory where a due write grant ends among the words of a group (04 R72). The corrected
code is held to -512..+511, and the clip mark is set exactly where it needed holding (01 R6). -/
def Obligations.SamplesAreTakenAtEveryTick : Prop :=
  (∀ (a b c d : Option (BitVec 10)) (ext : Bool) (split : Option Nat) (apart : Bool) (s : State),
    ∃ t, exec (.sample a b c d ext split apart) s = .next t ∧ onlyTouches [.sp, .trg, .acq, .smc, .mem] s t ∧
      (split = none ∨ (∀ (e : Tick) (es : List FifoEntry) (k : Bool), s.smc.grant = some ⟨e, .write es k⟩ →
          s.due e = false) → t.mem = s.mem ∧ t.smc.grant = s.smc.grant) ∧
      t.sp.corr = s.sp.corr ∧ t.trg.begun = false ∧ t.trg.halted = false ∧ t.acq.run = s.acq.run ∧ t.acq.cur = s.acq.cur ∧
      t.acq.captured = s.acq.captured ∧ t.acq.table = s.acq.table ∧ t.trg.tick = s.trg.tick + 1 ∧
      t.sp.held = ⟨a.getD s.sp.held.ch1, b.getD s.sp.held.ch2, c.getD s.sp.held.ch3, d.getD s.sp.held.ch4⟩ ∧
      (∀ ch : Ch, t.sp.codes.get ch = (correct (s.activeEntry ch) (t.sp.held.get ch).toNat).1) ∧
      (ext = s.trg.ext → t.trg.ext = s.trg.ext ∧ t.trg.extCount = 0) ∧
      (ext ≠ s.trg.ext → s.trg.extCount < 2 → t.trg.ext = s.trg.ext ∧ t.trg.extCount = s.trg.extCount + 1) ∧
      (ext ≠ s.trg.ext → 2 ≤ s.trg.extCount → t.trg.ext = ext ∧ t.trg.extCount = 0) ∧
      (s.sp.grouping = none → t.smc = s.smc ∧ t.mem = s.mem ∧ t.sp.acc = s.sp.acc ∧ t.sp.groupPos = s.sp.groupPos ∧
        t.sp.clipCount = s.sp.clipCount ∧ t.acq.ordinal = s.acq.ordinal ∧ t.acq.fill = s.acq.fill)) ∧
  (∀ (e : CorrEntry) (r : Nat),
    -512 ≤ (correct e r).1 ∧ (correct e r).1 ≤ 511 ∧
      (511 < correctedRaw e r → correct e r = (511, true)) ∧
      (correctedRaw e r < -512 → correct e r = (-512, true)) ∧
      (-512 ≤ correctedRaw e r → correctedRaw e r ≤ 511 → correct e r = (correctedRaw e r, false)))

/-- A sample joins its channels' group, and its clipped codes the clip count, held at 65535 (01 R8, R13). The last
member hands the group's words to the writer FIFO in ascending channel order at the ring position of its ordinal, over
the words of a whole ring earlier (01 R12, 03 R47, R48, 04 R69); a word that meets 4096 entries is discarded and marks
the segment GAPPED, and words after a due write grant ends among them find its places free (04 R71, R72). In ARMING the
pretrigger's last group enters READY, which starts the auto timer in AUTO and enables the sequencer where no holdoff
runs (02 R31, R38); in READY the ring goes on; in TRIGGERED the group with which the posttrigger is full ends filling
(03 R49). -/
def Obligations.GroupsAreHandedWhole : Prop :=
  ∀ (a b c d : Option (BitVec 10)) (ext : Bool) (split : Option Nat) (apart : Bool) (g : Grouping) (x : Captured)
    (n : Nat) (s : State),
    s.sp.grouping = some g → s.acq.captured = some x → s.acq.cur = some n →
    s.acq.seg.isSome = true →
    s.acq.state = .arming ∨ s.acq.state = .ready ∨ s.acq.state = .triggered →
    ∃ t, exec (.sample a b c d ext split apart) s = .next t ∧
      t.sp.clipCount = min 65535 (s.sp.clipCount
        + (g.chans.filter (fun ch => (correct (s.activeEntry ch) (t.sp.held.get ch).toNat).2)).length) ∧
      (s.sp.groupPos + 1 < g.decim → t.smc = s.smc ∧ t.mem = s.mem ∧ t.sp.groupPos = s.sp.groupPos + 1 ∧
        t.sp.grouping = some g ∧ t.acq.ordinal = s.acq.ordinal ∧ t.acq.fill = s.acq.fill ∧
        (s.acq.state ≠ .ready → t.acq = s.acq) ∧
        ∀ ch ∈ g.chans, t.sp.acc.get ch = some (Acc.add (s.sp.acc.get ch) (correct (s.activeEntry ch) (t.sp.held.get ch).toNat).1
          (correct (s.activeEntry ch) (t.sp.held.get ch).toNat).2)) ∧
      (g.decim ≤ s.sp.groupPos + 1 →
        let words := handedWords g x n t.sp.held s
        let first := words.take (split.getD words.length)
        let second := words.drop (split.getD words.length)
        let held := acceptedWords s.smc.fifo first
        (∀ (e : Tick) (es : List FifoEntry) (k : Bool), s.smc.grant = some ⟨e, .write es k⟩ → split ≠ none →
          s.due e = true → (∀ y ∈ es, y.addr < 134217728) →
          let freed := if k = true then held.drop es.length else held
          t.smc = ⟨acceptedWords freed second, none⟩ ∧ t.mem = writeEntries s.mem es ∧
            t.acq.seg.map (fun r => r.gapped) = s.acq.seg.map (fun r => r.gapped
              || decide (4096 - s.smc.fifo.length < first.length ∨ 4096 - freed.length < second.length))) ∧
        (split = none ∨ (∀ (e : Tick) (es : List FifoEntry) (k : Bool), s.smc.grant = some ⟨e, .write es k⟩ →
            s.due e = false) →
          t.smc = { s.smc with fifo := acceptedWords s.smc.fifo words } ∧ t.mem = s.mem ∧
            t.acq.seg.map (fun r => r.gapped) = s.acq.seg.map (fun r => r.gapped
              || decide (4096 - s.smc.fifo.length < words.length))) ∧
        t.sp.groupPos = 0 ∧ t.sp.acc = PerCh.const none ∧ t.acq.ordinal = s.acq.ordinal + 1 ∧
        (s.acq.state = .arming → t.acq.fill = s.acq.fill + 1 ∧ t.sp.grouping = some g ∧
          (s.acq.fill + 1 < x.pre → t.acq.state = .arming) ∧
          (x.pre ≤ s.acq.fill + 1 → t.acq.state = .ready ∧
            t.trg.autoStart = (if s.w.auto = true then some s.trg.tick else none) ∧
            (s.trg.holdoff ≠ none → t.trg.enabled = s.trg.enabled) ∧
            (s.trg.holdoff = none → t.trg.enabled = true ∧ t.trg.stage = 0 ∧ t.trg.timeout = none ∧
              t.trg.meas = some ⟨none, 0, s.trg.tick⟩ ∧
              t.trg.comps = (List.range s.w.stages).map (fun i =>
                compInit (s.w.stage i) t.sp.codes t.trg.ext)))) ∧
        (s.acq.state ≠ .arming → t.acq.fill = s.acq.fill) ∧
        (t.acq.state = .ready → t.sp.grouping = some g) ∧
        (s.acq.state = .triggered → t.acq.state = .triggered) ∧
        (∀ (r : SegRec) (f : FireRec), t.acq.state = .triggered → t.acq.seg = some r → r.fire = some f →
          t.sp.grouping = if f.ordinal + (x.len - x.pre) ≤ s.acq.ordinal + 1 then none else some g))

/-- A channel comparator turns HIGH at a code of at least LEVEL and LOW at a code below LEVEL - HYST, and keeps its
value between; an EXT comparator is the conditioned value (02 R19, R20). Over the samples a stage evaluates from its
entry, COUNT matches at the LIMIT-th counted edge, a width condition at the trailing edge of a pulse whose leading edge
it captured, STAY at the sample LIMIT ticks after its anchor while in the state, and RISE, FALL and EITHER at their
edges (02 R24 to R27). -/
def Obligations.ComparatorsAndConditionsMatch : Prop :=
  (∀ (st : StageRec) (codes : PerCh Int) (ext old : Bool),
    (∀ c : Ch, st.src = .chan c → 1 ≤ st.hyst →
      (st.level ≤ codes.get c → compNext st codes ext old = true) ∧
      (codes.get c < st.level - st.hyst → compNext st codes ext old = false) ∧
      (st.level - st.hyst ≤ codes.get c → codes.get c < st.level → compNext st codes ext old = old)) ∧
    (st.src = .ext → compNext st codes ext old = ext)) ∧
  ((∀ (st : StageRec) (m : Measure) (old new : Bool) (t : Tick),
    (st.cond = .rise → (evaluate st m old new t).2 = (!old && new)) ∧
    (st.cond = .fall → (evaluate st m old new t).2 = (old && !new)) ∧
    (st.cond = .either → (evaluate st m old new t).2 = (old ^^ new)) ∧
    (st.cond = .stay →
      let edge := decide (new = st.pos ∧ old ≠ st.pos)
      let anchor := if edge then t else m.anchor
      (evaluate st m old new t).1.anchor = anchor ∧
      (evaluate st m old new t).2 = decide (new = st.pos ∧ t = anchor + BitVec.ofNat 48 st.limit)) ∧
    (st.cond = .widthLt ∨ st.cond = .widthGt →
      (new = st.pos → old ≠ st.pos → evaluate st m old new t = ({ m with capture := some t }, false)) ∧
      (old = new → evaluate st m old new t = (m, false)) ∧
      (old = st.pos → new ≠ st.pos →
        (m.capture = none → evaluate st m old new t = (m, false)) ∧
        (∀ lead, m.capture = some lead →
          (evaluate st m old new t).1 = { m with capture := none } ∧
          ((evaluate st m old new t).2 = true ↔
            if st.cond = .widthLt then (t - lead).toNat < st.limit else st.limit < (t - lead).toNat))))) ∧
  (∀ (st : StageRec) (entry : Tick) (es : List (Bool × Bool × Tick)), st.cond = .count → 1 ≤ st.limit →
    let counted := fun e : Bool × Bool × Tick => decide (e.2.1 = st.pos ∧ e.1 ≠ st.pos)
    let x := evaluateAll st (Measure.fresh entry, false) es
    (x.2 = true ↔ st.limit ≤ (es.filter counted).length) ∧
    (x.2 = false → x.1.edges = (es.filter counted).length)))

/-- The examination of a sample taken in READY, the first case that applies deciding: force-pending fires FORCED; a
match of the enabled sequencer that ends in FIRE, by ONMATCH or at the last active stage, fires SEQUENCE; auto-pending
fires AUTO; a NEXT match enters the next stage with the sample's tick; otherwise the evaluation stands (02 R19, R21,
R28, R34). A sample that falls together with a STOP or an ACQ-class change taken before it is not examined, also where a
re-arm with pre 0 has made the state READY: no fire, and the comparators alone are updated (02 R21, R38, 03 R62; log 44
for which sample that is and for the comparators). The instant at which a fire's pulse is counted high is the model's
choice (log 14). -/
def Obligations.SamplesInReadyAreExaminedOnce : Prop :=
  ∀ (a b c d : Option (BitVec 10)) (ext : Bool) (split : Option Nat) (apart : Bool) (s : State),
    s.acq.state = .ready →
    ∃ t, exec (.sample a b c d ext split apart) s = .next t ∧
      (s.trg.halted = true → apart = false →
        t.trg = { s.trg with
          tick := s.trg.tick + 1, begun := false, halted := false, ext := t.trg.ext, extCount := t.trg.extCount,
          comps := if s.trg.enabled = true then (List.range s.w.stages).map (fun i =>
              compNext (s.w.stage i) t.sp.codes t.trg.ext (s.trg.comps.getD i false))
            else s.trg.comps } ∧
          t.acq.state = .ready) ∧
      (s.trg.halted = false ∨ apart = true →
      (s.trg.forcePending = true → firedAs .forced s t) ∧
      (s.trg.forcePending = false → s.trg.enabled = false →
        t.trg = { s.trg with
          tick := s.trg.tick + 1, begun := false, halted := false, ext := t.trg.ext, extCount := t.trg.extCount } ∧
          t.acq.state = .ready) ∧
      (∀ m : Measure, s.trg.forcePending = false → s.trg.enabled = true → s.trg.meas = some m →
        let k := s.trg.stage
        let st := s.w.stage k
        let comps := (List.range s.w.stages).map (fun i =>
          compNext (s.w.stage i) t.sp.codes t.trg.ext (s.trg.comps.getD i false))
        let x := evaluate st m (s.trg.comps.getD k false) (comps.getD k false) s.trg.tick
        let fires := x.2 = true ∧ (st.fire = true ∨ s.w.stages ≤ k + 1)
        (fires → firedAs .sequence s t) ∧
        (¬fires → s.trg.autoPending = true → firedAs .auto s t) ∧
        (¬fires → s.trg.autoPending = false → x.2 = true →
          t.trg = { s.trg with tick := s.trg.tick + 1, begun := false, halted := false, ext := t.trg.ext,
                               extCount := t.trg.extCount, comps := comps,
                               stage := k + 1, meas := some ⟨none, 0, s.trg.tick⟩,
                               timeout := if (s.w.stage (k + 1)).timeout = 0 then none
                                 else some (s.trg.tick + BitVec.ofNat 48 (s.w.stage (k + 1)).timeout) } ∧
            t.acq.state = .ready) ∧
        (x.2 = false → s.trg.autoPending = false →
          t.trg = { s.trg with tick := s.trg.tick + 1, begun := false, halted := false, ext := t.trg.ext,
                               extCount := t.trg.extCount, comps := comps,
                               meas := some x.1 } ∧
            t.acq.state = .ready)))

/-- The expiries of the sequencer's timers, each taken from its tick on (the model's choice, log 3: 02 R17 takes an
expiry at its tick): a stage timeout returns to stage 0 with fresh measurement state, a holdoff's end enables the
sequencer in READY, an auto timer's end in READY sets auto-pending, and TRIG OUT falls (02 R29 to R31, R36). -/
def Obligations.SequencerTimersExpire : Prop :=
  ∀ s : State,
    (∀ e : Tick, s.trg.timeout = some e → s.due e = true →
      ∃ t, exec .stageTimeout s = .next t ∧ onlyTouches [.trg] s t ∧
        t.trg = { s.trg with stage := 0, meas := some ⟨none, 0, s.lastTick⟩, timeout := none }) ∧
    (∀ e : Tick, s.trg.holdoff = some e → s.due e = true →
      (s.acq.state = .ready →
        ∃ t, exec .holdoffExpiry s = .next t ∧ onlyTouches [.trg] s t ∧
          t.trg = { s.trg with holdoff := none, enabled := true, stage := 0, timeout := none,
                               meas := some ⟨none, 0, s.lastTick⟩,
                               comps := (List.range s.w.stages).map (fun i =>
                                 compInit (s.w.stage i) s.sp.codes s.trg.ext) }) ∧
      (s.acq.state ≠ .ready →
        ∃ t, exec .holdoffExpiry s = .next t ∧ onlyTouches [.trg] s t ∧ t.trg = { s.trg with holdoff := none })) ∧
    (∀ start : Tick, s.trg.autoStart = some start → s.due (start + s.w.autoTime) = true → s.acq.state = .ready →
      ∃ t, exec .autoTimerExpiry s = .next t ∧ onlyTouches [.trg] s t ∧
        t.trg = { s.trg with autoStart := none, autoPending := true }) ∧
    (∀ r e : Tick, s.trg.trigOut = some ⟨r, e⟩ → s.due e = true →
      ∃ t, exec .trigOutEnd s = .next t ∧ onlyTouches [.trg] s t ∧ t.trg = { s.trg with trigOut := none } ∧
        t.trigOutHigh = false)

/-! ## Acquisition, buffers and the sample memory -/

/-- The start checks, in order: a channel enabled, every active entry loaded of the enabled channels and of the sources
of active stages, and the record set within a buffer (03 R41). RUN and SINGLE taken in STOP with the checks passed arm a
record set: the run state becomes the one asked for; a buffer chosen becomes FILLING, the values that govern the set are
captured, grouping opens, and segment 0 is in ARMING, or where the pretrigger is 0 the sequencer is entered at READY;
the skip accumulator rises where the buffer was NEW; a stream that reads the buffer recycled ends with GONE; with no
buffer the state is WAIT_BUFFER. A failed check refuses the start and changes nothing (03 R42, R43, R45, R47, R48, R58,
02 R31, R38, 11 R210). What WAIT_BUFFER leaves of the segment index, the fill count and the ordinal, and the number an
arming gives its set, are the model's choices (logs 15, 16). -/
def Obligations.StartsAreCheckedAndArm : Prop :=
  (∀ s : State,
    let noChannel := ∀ c : Ch, s.w.enabled c = false
    let unloaded := ∃ c : Ch, (s.w.enabled c = true ∨ ∃ i < s.w.stages, (s.w.stage i).src = .chan c) ∧
      (s.activeEntry c).loaded = false
    let tooLarge := 134217728 / s.w.buffers < s.w.enabledChans.length * s.w.stored * s.w.segments
    (noChannel → s.startCheck = some .nochan) ∧
    (¬noChannel → unloaded → s.startCheck = some .notloaded) ∧
    (¬noChannel → ¬unloaded → tooLarge → s.startCheck = some .limit) ∧
    (¬noChannel → ¬unloaded → ¬tooLarge → s.startCheck = none)) ∧
  (∀ (tag : Byte) (s u : State), ∀ x ∈ [(Instr.run tag, 0x30#8, RunState.run), (Instr.single tag, 0x31#8, RunState.single)],
    takes x.1 s u → u.recalling = false → u.acq.run = .stop →
    (∀ code : ResultCode, u.startCheck = some code → refusedWith x.1 x.2.1 tag code s u) ∧
    (u.startCheck = none →
      ∃ t, exec x.1 s = .next t ∧ responds x.2.1 tag .ok [] u t ∧ t.acq.run = x.2.2 ∧
        onlyTouches [.sp, .trg, .acq, .pool, .smc, .panel, .link, .readout] u t ∧
        t.panel = { u.panel with
          access := if u.w.autoRemote = true ∧ u.panel.access = .local then .remote else u.panel.access } ∧
        startedSet u t))

/-- RUN taken in SINGLE and SINGLE taken in RUN change the run state alone, and each taken in its own run state changes
nothing. STOP taken in RUN or SINGLE frees the FILLING buffer, discards the segment with its group and clip count,
disables the sequencer and leaves any running holdoff; that it leaves the segment index, the fill count and the ordinal
as they stood is the model's choice (log 15); a sample that falls together with the STOP is not examined (log 44); in
STOP it changes nothing. FORCE sets force-pending in READY and ARMING and is answered STATE otherwise. Power-on recall
holds RUN, SINGLE and STOP (03 R42 to R44, R67, 02 R33, R38, 07 R138). -/
def Obligations.RunStopAndForceTakeEffect : Prop :=
  ∀ (tag : Byte) (s u : State),
    (∀ i ∈ [Instr.run tag, Instr.single tag, Instr.stop tag], takes i s u → u.recalling = true →
      exec i s = .next (u.hold i)) ∧
    (∀ x ∈ [(Instr.run tag, 0x30#8, RunState.run), (Instr.single tag, 0x31#8, RunState.single)],
      takes x.1 s u → u.recalling = false → u.acq.run ≠ .stop →
      ∃ t, exec x.1 s = .next t ∧ responds x.2.1 tag .ok [] u t ∧ onlyTouches [.acq, .panel, .link] u t ∧
        t.acq = { u.acq with run := x.2.2 } ∧
        t.panel = { u.panel with
          access := if u.acq.run ≠ x.2.2 ∧ u.w.autoRemote = true ∧ u.panel.access = .local then .remote
            else u.panel.access }) ∧
    (takes (.stop tag) s u → u.recalling = false →
      (u.acq.run = .stop → onlyAnswers (.stop tag) 0x32 tag [] s u) ∧
      (u.acq.run ≠ .stop →
        ∃ t, exec (.stop tag) s = .next t ∧ responds 0x32 tag .ok [] u t ∧
          onlyTouches [.sp, .trg, .acq, .pool, .panel, .link] u t ∧
          acquisitionStopped u t ∧
          t.panel = { u.panel with
            access := if u.w.autoRemote = true ∧ u.panel.access = .local then .remote else u.panel.access })) ∧
    (takes (.force tag) s u →
      (u.acq.state = .ready ∨ u.acq.state = .arming →
        ∃ t, exec (.force tag) s = .next t ∧ responds 0x33 tag .ok [] u t ∧ onlyTouches [.trg, .link] u t ∧
          t.trg = { u.trg with forcePending := true }) ∧
      (u.acq.state ≠ .ready → u.acq.state ≠ .arming → refusedWith (.force tag) 0x33 tag .state s u))

/-- The completion of a segment that has drained: its entry is placed, and the next segment of the set enters ARMING.
The last segment's completion makes the buffer NEW at the end of the completion list with its descriptor and the next
sequence number, and offers an ACQ report, which updates the one that waits, enters, or is discarded by a full queue
with the skip accumulator kept (03 R50, R51, R65). An idle Rasterizer may take the buffer before what follows (05 R81):
in SINGLE the stop with its SINGLE_DONE report, and otherwise the selection and arming of the next set (03 R52): the
buffer selected is FILLING and leaves the completion list, a stream that reads it ends with GONE, the skip accumulator
rises where it was NEW, the values are captured, grouping opens, and with a pretrigger of 0 the sequencer is entered at
READY (03 R45, R47, R58, 11 R210); where none qualifies, the state is WAIT_BUFFER. Nothing else changes. That the
segment index, the fill count and the ordinal stay as they stood at SINGLE's end and in WAIT_BUFFER is the model's
choice (log 15), as is the number that an arming gives its set (log 16). -/
def Obligations.SegmentsCompleteOnceDrained : Prop :=
  ∀ (drawFirst : Bool) (b : Nat) (c : Captured) (g : Bool) (f : FireRec) (s : State),
    s.acq.state = .triggered → s.sp.grouping = none →
    (∀ e ∈ s.smc.fifo, ¬(e.setId = s.acq.setId ∧ e.seg = s.acq.segIdx)) →
    s.acq.cur = some b → s.acq.captured = some c → s.acq.seg = some ⟨g, some f⟩ →
    let table := s.acq.table ++ [⟨f.tick, f.sub, f.kind, f.origin, s.sp.clipCount, g⟩]
    let gapped := table.any (fun e => e.gapped)
    let clipped := table.any (fun e => decide (0 < e.clips))
    ∃ t, exec (.segmentComplete drawFirst) s = .next t ∧
      (s.acq.segIdx + 1 < c.segs →
        onlyTouches [.sp, .trg, .acq] s t ∧ segmentBegun c.pre s t ∧
        t.acq = { s.acq with
          state := if c.pre = 0 then .ready else .arming, segIdx := s.acq.segIdx + 1, fill := 0, ordinal := 0,
          seg := some ⟨false, none⟩, table := table }) ∧
      (c.segs ≤ s.acq.segIdx + 1 → ∃ u v : State,
        onlyTouches [.acq, .pool, .link] s u ∧ u.pool.count = s.pool.count ∧
        u.pool.completion = s.pool.completion ++ [b] ∧
        u.pool.buf b = ⟨.new, (s.pool.buf b).pinned, false,
          some ⟨s.acq.nextSeq, c, gapped, clipped, false, table⟩⟩ ∧
        (∀ j : Nat, j ≠ b → u.pool.buf j = s.pool.buf j) ∧
        u.acq = { s.acq with nextSeq := s.acq.nextSeq + 1, cur := none, seg := none, captured := none, table := [],
                             skip := u.acq.skip } ∧
        (∀ (older newer : List Report) (lost : Bool) (b' : Nat) (q : BitVec 32) (n k : Nat) (g' c' : Bool),
          s.link.reports = older ++ ⟨lost, .acq b' q n k g' c'⟩ :: newer → (∀ r ∈ older, r.body.isAcq = false) →
          u.acq.skip = 0 ∧ u.link = { s.link with
            reports := older ++ ⟨lost, .acq b s.acq.nextSeq (min 255 (n + 1)) (min 255 (k + s.acq.skip))
              (g' || gapped) (c' || clipped)⟩ :: newer }) ∧
        ((∀ r ∈ s.link.reports, r.body.isAcq = false) →
          (s.link.reports.length < 32 →
            u.acq.skip = 0 ∧ u.link = s.link.enter (.acq b s.acq.nextSeq 1 s.acq.skip gapped clipped)) ∧
          (32 ≤ s.link.reports.length → u.acq.skip = s.acq.skip ∧ u.link = { s.link with lost := true })) ∧
        (drawFirst = false → v = u) ∧
        (drawFirst = true → exec .rasterizerTake u = .next v ∧ onlyTouches [.pool, .ras, .planes] u v) ∧
        (s.acq.run = .single → onlyTouches [.acq, .link] v t ∧
          t.acq = { u.acq with run := .stop, state := .stopped } ∧
          t.link = u.link.offerRunstate (.runstate .stop .stopped .singleDone .ok)) ∧
        (s.acq.run ≠ .single → onlyTouches [.sp, .trg, .acq, .pool, .smc, .readout] v t ∧ t.acq.run = s.acq.run ∧
          startedSet v t))

/-- Selection takes the lowest FREE buffer, else the first unpinned SHOWN buffer of the completion list, else the first
unpinned NEW one. In WAIT_BUFFER a buffer that qualifies is selected and armed, which ends with GONE a stream that reads
it (03 R58, R59, 11 R210; log 16 for the number an arming gives its set), and the IDLE Rasterizer takes the first NEW
buffer of the list, clearing its first channel's plane in persistence OFF (05 R80, R91). -/
def Obligations.BuffersAreTakenInOrder : Prop :=
  ∀ s : State,
    (∀ b : Nat, s.pool.choose = some b →
      (b < s.pool.count ∧ (s.pool.buf b).state = .free ∧ ∀ j < b, (s.pool.buf j).state ≠ .free) ∨
      ((∀ j < s.pool.count, (s.pool.buf j).state ≠ .free) ∧ (s.pool.buf b).pinned = false ∧
        ∃ older newer, s.pool.completion = older ++ b :: newer ∧
          ((s.pool.buf b).state = .shown ∧
              (∀ j ∈ older, (s.pool.buf j).state = .shown → (s.pool.buf j).pinned = true) ∨
           (s.pool.buf b).state = .new ∧
              (∀ j ∈ s.pool.completion, (s.pool.buf j).state = .shown → (s.pool.buf j).pinned = true) ∧
              (∀ j ∈ older, (s.pool.buf j).state = .new → (s.pool.buf j).pinned = true)))) ∧
    (s.pool.choose = none ↔
      (∀ j < s.pool.count, (s.pool.buf j).state ≠ .free) ∧
        ∀ j ∈ s.pool.completion, (s.pool.buf j).state = .shown ∨ (s.pool.buf j).state = .new →
          (s.pool.buf j).pinned = true) ∧
    (∀ b : Nat, s.acq.state = .waitBuffer → s.pool.choose = some b →
      ∃ t, exec .reexamination s = .next t ∧ onlyTouches [.sp, .trg, .acq, .pool, .smc, .readout] s t ∧
        t.acq.run = s.acq.run ∧ armedIn b s t) ∧
    (∀ (b : Nat) (d : Descriptor) (c : Ch) (r : Nat) (cs : List (Ch × Nat)), s.ras.drawing = none →
      s.pool.completion.find? (fun j => decide ((s.pool.buf j).state = .new)) = some b →
      (s.pool.buf b).desc = some d → d.values.chans = (c, r) :: cs →
      ∃ t, exec .rasterizerTake s = .next t ∧ onlyTouches [.pool, .ras, .planes] s t ∧
        t.pool.completion = s.pool.completion ∧
        (∀ j : Nat, t.pool.buf j = if j = b then { s.pool.buf b with state := .drawing } else s.pool.buf j) ∧
        t.ras.drawing = some ⟨b, 0, 0, 0, d.origin 0, 0, 0, [], none⟩ ∧
        ∀ (ch : Ch) (x y : Nat), t.cell ch x y = if ch = c ∧ s.w.persist = .off then 0 else s.cell ch x y)

/-- PIN sets the pinned flag of a buffer in NEW, DRAWING or SHOWN while fewer than B - 1 are pinned; UNPIN clears it. An
index not below B is refused with RANGE, a PIN of a FREE or FILLING buffer with STATE, and a PIN beyond B - 1 with
LIMIT; asking for what stands changes nothing (03 R57). -/
def Obligations.PinsFollowTheirTable : Prop :=
  ∀ (tag buffer : Byte) (s u : State), let b := buffer.toNat
    (takes (.pin tag buffer) s u →
      (u.pool.count ≤ b → refusedWith (.pin tag buffer) 0x43 tag .range s u) ∧
      (b < u.pool.count →
        ((u.pool.buf b).state = .free ∨ (u.pool.buf b).state = .filling →
          refusedWith (.pin tag buffer) 0x43 tag .state s u) ∧
        ((u.pool.buf b).state ≠ .free → (u.pool.buf b).state ≠ .filling →
          ((u.pool.buf b).pinned = true → onlyAnswers (.pin tag buffer) 0x43 tag [] s u) ∧
          ((u.pool.buf b).pinned = false →
            (u.pool.count ≤ u.pool.pinnedCount + 1 → refusedWith (.pin tag buffer) 0x43 tag .limit s u) ∧
            (u.pool.pinnedCount + 1 < u.pool.count →
              ∃ t, exec (.pin tag buffer) s = .next t ∧ responds 0x43 tag .ok [] u t ∧ onlyTouches [.pool, .link] u t ∧
                t.pool.count = u.pool.count ∧ t.pool.completion = u.pool.completion ∧
                ∀ j : Nat, t.pool.buf j =
                  if j = b then { u.pool.buf b with pinned := true } else u.pool.buf j))))) ∧
    (takes (.unpin tag buffer) s u →
      (u.pool.count ≤ b → refusedWith (.unpin tag buffer) 0x44 tag .range s u) ∧
      (b < u.pool.count → (u.pool.buf b).pinned = false → onlyAnswers (.unpin tag buffer) 0x44 tag [] s u) ∧
      (b < u.pool.count → (u.pool.buf b).pinned = true →
        ∃ t, exec (.unpin tag buffer) s = .next t ∧ responds 0x44 tag .ok [] u t ∧ onlyTouches [.pool, .link] u t ∧
          t.pool.count = u.pool.count ∧ t.pool.completion = u.pool.completion ∧
          ∀ j : Nat, t.pool.buf j = if j = b then { u.pool.buf b with pinned := false } else u.pool.buf j))

/-- Arbitration grants a free port to the first requester, in the order of MEM.PROMOTE, that holds a request, for 6
ticks from the instant's tick, that of the next sample where an event timed at it has been taken (04 R73, R74; log 35).
ACQ_WRITE holds a request while 64 words wait, or any word waits with no segment being filled, and is granted the oldest
64. DRAW_READ asks for the next min(64, words left) positions of the segment drawn (05 R83), and READOUT for those of
the stream where the fetch store has room for them (11 R206). The end of an ACQ_WRITE grant writes each word at its
address in FIFO order and removes the entries it took; every other word of the memory reads as before (04 R74). -/
def Obligations.GrantsFollowThePromotionAndWrite : Prop :=
  (∀ (s : State) (job : GrantJob), s.smc.grant = none →
    let order : List Requester := match s.w.promote with
      | .none => [.acqWrite, .drawRead, .readout]
      | .draw => [.drawRead, .acqWrite, .readout]
      | .readout => [.readout, .acqWrite, .drawRead]
    (∀ (k : Nat) (q : Requester), order[k]? = some q → s.request q = some job →
      (∀ j < k, ∀ q' : Requester, order[j]? = some q' → s.request q' = none) →
      ∃ t, exec .arbitration s = .next t ∧ onlyTouches [.smc] s t ∧ t.smc.fifo = s.smc.fifo ∧
        t.smc.grant = some ⟨(if s.trg.begun = true then s.trg.tick else s.lastTick) + 6, job⟩) ∧
    ((s.request .acqWrite).isSome = true ↔
      64 ≤ s.smc.fifo.length ∨ s.smc.fifo ≠ [] ∧ s.sp.grouping = none) ∧
    (s.request .acqWrite = some job → job = .write (s.smc.fifo.take 64) true)) ∧
  (∀ s : State,
    (s.ras.drawing = none → s.request .drawRead = none) ∧
    (∀ (g : Drawing) (d : Descriptor), s.ras.drawing = some g → (s.pool.buf g.buf).desc = some d →
      (d.values.stored ≤ g.delivered → s.request .drawRead = none) ∧
      (g.delivered < d.values.stored → s.request .drawRead =
        some (.draw ⟨g.buf * s.pool.capacity + (g.place * d.values.segs + g.seg) * d.values.stored, d.values.stored,
          g.nextPos, min 64 (d.values.stored - g.delivered)⟩ true))) ∧
    (s.readout.stream = none → s.request .readout = none) ∧
    (∀ st : Stream, s.readout.stream = some st →
      let k := min 64 (st.remaining * st.perIndex)
      (k = 0 ∨ 8192 < s.readout.words.length + k → s.request .readout = none) ∧
      (0 < k → s.readout.words.length + k ≤ 8192 →
        s.request .readout = some (.readout ⟨st.base, st.len, st.pos, k⟩ true)))) ∧
  (∀ (e : Tick) (es : List FifoEntry) (attached : Bool) (s : State),
    s.smc.grant = some ⟨e, .write es attached⟩ → s.due e = true → (∀ x ∈ es, x.addr < 134217728) →
    ∃ t, exec .acqWriteGrantEnd s = .next t ∧ onlyTouches [.mem, .smc, .trg] s t ∧ arrivedAt e s t ∧ t.smc.grant = none ∧
      t.smc.fifo = (if attached = true then s.smc.fifo.drop es.length else s.smc.fifo) ∧
      (∀ a : Nat, a ∉ es.map (fun x => x.addr) → t.mem.get memDefault a = s.mem.get memDefault a) ∧
      (∀ (pre post : List FifoEntry) (x : FifoEntry), es = pre ++ x :: post →
        x.addr ∉ post.map (fun y => y.addr) → t.mem.get memDefault x.addr = x.word))

/-- The end of a wanted DRAW_READ grant takes its words in delivery order, and that of a withdrawn one discards them (05
R83, R87, 04 R76). A word's row joins the column's set. A column's last word lights its lit set, which gains the weight,
held at 255, in that column of the channel's plane alone: the rows of the set in DOTS, and in VECTORS every row from the
least to the greatest, the previous row included; its row becomes the previous row of the next column (05 R85, R88 to
R90). Column 699 ends the segment: the next segment of the channel follows from its ring origin, then segment 0 of the
next channel, its plane cleared first in persistence OFF, and after the last the buffer is SHOWN and the Rasterizer IDLE
(05 R82, R84, R91). That all columns of a delivery are completed in the one row is the model's choice (log 42). -/
def Obligations.CompletedColumnsAreLit : Prop :=
  (∀ (e : Tick) (b : Burst) (wanted : Bool) (g : Drawing) (s : State),
    s.smc.grant = some ⟨e, .draw b wanted⟩ → s.due e = true → (∀ a ∈ b.addrs, a < 134217728) →
    (wanted = true → s.ras.drawing = some g) →
    let words := (List.range b.count).map (fun i => s.mem.get memDefault (b.base + (b.pos + i) % b.len) &&& 0x83FF#16)
    let moved := (s.withSmc ⟨s.smc.fifo, none⟩).withRas ⟨some { g with
      nextPos := (g.nextPos + b.count) % b.len, delivered := g.delivered + b.count }⟩
    ∃ t, exec .drawReadGrantEnd s = .next t ∧ arrivedAt e s t ∧ t.smc = ⟨s.smc.fifo, none⟩ ∧
      (wanted = false → onlyTouches [.smc, .trg] s t) ∧
      (wanted = true → onlyTouches [.smc, .trg, .ras, .planes, .pool] s t ∧
        let last := words.foldl (fun u word => State.drawWord word u) moved
        t.ras = last.ras ∧ t.planes = last.planes ∧ t.pool = last.pool)) ∧
  (∀ (word : SampleWord) (g : Drawing) (d : Descriptor) (c : Ch) (r : Nat) (s : State),
    s.ras.drawing = some g → (s.pool.buf g.buf).desc = some d → d.values.chans[g.place]? = some (c, r) →
    List.Pairwise (· < ·) g.rows → (∀ x ∈ g.rows, x < 400) → (∀ p, g.prev = some p → p < 400) →
    let row := (max 0 (min 399 (199 - (wordCode word + s.w.pos c) / 2))).toNat
    let rows := insertRow row g.rows
    let lit := fun y : Nat =>
      if s.w.vectors = true then
        (∃ x ∈ rows, x ≤ y) ∧ (∃ x ∈ rows, y ≤ x) ∨
          ∃ p, g.prev = some p ∧ ((p ≤ y ∧ ∃ x ∈ rows, y ≤ x) ∨ (y ≤ p ∧ ∃ x ∈ rows, x ≤ y))
      else y ∈ rows
    let gains := fun (ch : Ch) (x y v : Nat) =>
      (ch = c → x = g.col → lit y → v = min 255 (s.cell ch x y + s.w.weight c)) ∧
      (¬(ch = c ∧ x = g.col ∧ lit y) → v = s.cell ch x y)
    let t := s.drawWord word
    (∀ x ∈ rows, x = row ∨ x ∈ g.rows) ∧ row ∈ rows ∧ (∀ x ∈ g.rows, x ∈ rows) ∧ List.Pairwise (· < ·) rows ∧
    (g.inCol + 1 < d.values.stored / 700 → t = s.withRas ⟨some { g with inCol := g.inCol + 1, rows := rows }⟩) ∧
    (d.values.stored / 700 ≤ g.inCol + 1 →
      (g.col < 699 → onlyTouches [.ras, .planes] s t ∧
        t.ras.drawing = some { g with col := g.col + 1, inCol := 0, rows := [], prev := some row } ∧
        ∀ (ch : Ch) (x y : Nat), y < 400 → gains ch x y (t.cell ch x y)) ∧
      (699 ≤ g.col → g.seg + 1 < d.values.segs → onlyTouches [.ras, .planes] s t ∧
        t.ras.drawing = some ⟨g.buf, g.place, g.seg + 1, 0, d.origin (g.seg + 1), 0, 0, [], none⟩ ∧
        ∀ (ch : Ch) (x y : Nat), y < 400 → gains ch x y (t.cell ch x y)) ∧
      (699 ≤ g.col → d.values.segs ≤ g.seg + 1 →
        (∀ (c' : Ch) (r' : Nat), d.values.chans[g.place + 1]? = some (c', r') → onlyTouches [.ras, .planes] s t ∧
          t.ras.drawing = some ⟨g.buf, g.place + 1, 0, 0, d.origin 0, 0, 0, [], none⟩ ∧
          ∀ (ch : Ch) (x y : Nat), y < 400 →
            (ch = c' → s.w.persist = .off → t.cell ch x y = 0) ∧
            (¬(ch = c' ∧ s.w.persist = .off) → gains ch x y (t.cell ch x y))) ∧
        (d.values.chans[g.place + 1]? = none → onlyTouches [.ras, .planes, .pool] s t ∧ t.ras.drawing = none ∧
          t.pool.count = s.pool.count ∧ t.pool.completion = s.pool.completion ∧
          (∀ j : Nat, t.pool.buf j = if j = g.buf then { s.pool.buf j with state := .shown } else s.pool.buf j) ∧
          ∀ (ch : Ch) (x y : Nat), y < 400 → gains ch x y (t.cell ch x y)))))

/-- READ checks its values in the order of the rule, and an accepted READ fills the stream record: the ring of the
channel's place in the buffer, the position of the first record index from the segment's ring origin, and as many record
indices as the record holds from there. A READ during a stream is refused with BUSY and marks the stream (11 R204 to
R206, R211). READ_CANCEL ends the stream: its ready frame and its fetched words are discarded, a grant of its own is no
longer wanted, and a last frame without words is formed with status CANCELLED, the collided mark and the index after the
last one sent; an earlier stream's last frame still ready keeps its words and goes first (log 20). With no stream it is
answered STATE (11 R209). -/
def Obligations.StreamsBeginAndAreCancelled : Prop :=
  (∀ (tag buffer channel : Byte) (segment : BitVec 16) (first count : BitVec 32) (s u : State),
    let i := Instr.read tag buffer channel segment first count
    let b := buffer.toNat
    takes i s u →
    (u.pool.count ≤ b ∨ Ch.ofNum channel.toNat = none → refusedWith i 0x45 tag .range s u) ∧
    (∀ c : Ch, b < u.pool.count → Ch.ofNum channel.toNat = some c →
      (∀ st : Stream, u.readout.stream = some st →
        ∃ t, exec i s = .next t ∧ responds 0x45 tag .busy [] u t ∧ onlyTouches [.readout, .link] u t ∧
          t.readout = { u.readout with stream := some { st with collided := true } }) ∧
      (u.readout.stream = none →
        ((u.pool.buf b).state = .free ∨ (u.pool.buf b).state = .filling → refusedWith i 0x45 tag .state s u) ∧
        (∀ d : Descriptor, (u.pool.buf b).state ≠ .free → (u.pool.buf b).state ≠ .filling →
          (u.pool.buf b).desc = some d →
          ((∀ r : Nat, (c, r) ∉ d.values.chans) ∨ d.values.segs ≤ segment.toNat ∨ d.values.len ≤ first.toNat
              ∨ count.toNat = 0 → refusedWith i 0x45 tag .range s u) ∧
          (∀ (k r : Nat), d.values.chans[k]? = some (c, r) → (∀ j < k, ∀ r' : Nat, d.values.chans[j]? ≠ some (c, r')) →
            segment.toNat < d.values.segs → first.toNat < d.values.len → 0 < count.toNat →
            let n := min count.toNat (d.values.len - first.toNat)
            ∃ t st, exec i s = .next t ∧
              responds 0x45 tag (if n = count.toNat then .ok else .clamped)
                (beBytes 4 n ++ beBytes 4 d.seq.toNat ++ [BitVec.ofNat 8 d.values.mode.code]
                  ++ beBytes 4 (n * d.values.mode.perGroup)) u t ∧
              onlyTouches [.readout, .link] u t ∧ t.readout = { u.readout with stream := some st } ∧
              st.buf = b ∧ st.seq = d.seq ∧ st.chan = c ∧ st.seg = segment.toNat ∧ st.first = first.toNat ∧
              st.next = first.toNat ∧ st.remaining = n ∧ st.tag = tag ∧ st.collided = false ∧
              st.base = b * u.pool.capacity + (k * d.values.segs + segment.toNat) * d.values.stored ∧
              st.len = d.values.stored ∧ st.perIndex = d.values.mode.perGroup ∧
              st.pos = (d.origin segment.toNat + first.toNat * d.values.mode.perGroup) % d.values.stored ∧
              st.cut = first.toNat ∧ st.sent = first.toNat ∧ st.last = first.toNat + n))))) ∧
  (∀ (tag : Byte) (s u : State), takes (.readCancel tag) s u →
    (u.readout.stream = none → refusedWith (.readCancel tag) 0x46 tag .state s u) ∧
    (∀ st : Stream, u.readout.stream = some st →
      ∃ t, exec (.readCancel tag) s = .next t ∧ responds 0x46 tag .ok [] u t ∧
        onlyTouches [.readout, .smc, .link] u t ∧ t.smc.fifo = u.smc.fifo ∧ streamEnded .cancelled st u t ∧
        (u.readout.frames.all (fun f => decide (f.status = .more)) = true → t.readout.words = []) ∧
        ((∀ (e : Tick) (b : Burst) (k : Bool), u.smc.grant ≠ some ⟨e, .readout b k⟩) → t.smc.grant = u.smc.grant)))

/-- The end of a wanted READOUT grant appends its words to the fetch store, each with its code and CLIP mark alone, read
as the grant ends (log 32), and moves the stream on, lowering what remains at that delivery (the model's choice: log
34); the end of one that is no longer wanted discards them (04 R70, R76, 11 R206). A DATA frame becomes ready with the
next 1000 words of the stream, or those that remain, once the fetch store holds them and no frame is ready; the one that
carries the last record index is COMPLETE, and the stream ends (11 R207, R208). -/
def Obligations.StreamsAreFetchedAndCut : Prop :=
  (∀ (e : Tick) (b : Burst) (wanted : Bool) (st : Stream) (s : State),
    s.smc.grant = some ⟨e, .readout b wanted⟩ → s.due e = true → (∀ a ∈ b.addrs, a < 134217728) →
    (wanted = true → s.readout.stream = some st) →
    ∃ t, exec .readoutGrantEnd s = .next t ∧ onlyTouches [.smc, .readout, .trg] s t ∧ arrivedAt e s t ∧
      t.smc = ⟨s.smc.fifo, none⟩ ∧
      (wanted = false → t.readout = s.readout) ∧
      (wanted = true →
        t.readout.frames = s.readout.frames ∧
        t.readout.words = s.readout.words ++ (List.range b.count).map (fun i =>
          s.mem.get memDefault (b.base + (b.pos + i) % b.len) &&& 0x83FF#16) ∧
        t.readout.stream = some { st with
          pos := (st.pos + b.count) % st.len, next := st.next + b.count / st.perIndex,
          remaining := st.remaining - b.count / st.perIndex })) ∧
  (∀ (st : Stream) (s : State), s.readout.stream = some st → s.readout.frames = [] → 0 < st.perIndex →
    let k := min 1000 ((st.last - st.cut) * st.perIndex)
    0 < k → k ≤ s.readout.words.length →
    let n := k / st.perIndex
    ∃ t, exec .dataFrameReady s = .next t ∧ onlyTouches [.readout] s t ∧ t.readout.words = s.readout.words ∧
      t.readout.frames = [⟨st.tag, st.cut, n, if st.last ≤ st.cut + n then .complete else .more, st.collided,
        s.readout.words.take k⟩] ∧
      t.readout.stream = if st.last ≤ st.cut + n then none else some { st with cut := st.cut + n })

/-! ## The screen -/

/-- A frame tick sets the frame counter and the phases from it, latches the ground markers of the enabled channels and
the trigger marker of a channel source, and begins the frame's pixels, and nothing else of the Compositor changes, the
attribute sets, the dim state and the backlight output among it; in persistence VARIABLE every plane cell falls by
ceil(old x k / 256), and in OFF and INFINITE the planes stay (06 R99 to R101, R108, R109, 05 R91, R92). A backlight
period latches DSP.BACKLIGHT, or the lesser of it and DSP.DIMLEVEL in the dim state; BL PWM is high for the first 200 x
level ticks of its 51 000, low throughout at level 0 and high throughout at level 255 (06 R119). -/
def Obligations.FramesAndBacklightFollowTheirTicks : Prop :=
  (∀ s : State, s.due (ticks (s.comp.nextFrame * 50000000 / 3)) = true →
    ∃ t, exec .frameTick s = .next t ∧ onlyTouches [.comp, .planes] s t ∧
      t.comp = { s.comp with
        nextFrame := s.comp.nextFrame + 1, frame := BitVec.ofNat 32 s.comp.nextFrame, scan := some 0, slow := t.comp.slow,
        fast := t.comp.fast, ground := t.comp.ground, trigMark := t.comp.trigMark } ∧
      (t.comp.slow = true ↔ t.comp.frame.toNat / 32 % 2 = 0) ∧ (t.comp.fast = true ↔ t.comp.frame.toNat / 8 % 2 = 0) ∧
      (∀ c : Ch, t.comp.ground.get c =
        if s.w.enabled c then some ⟨planeRow 0 (s.w.pos c), rowHeld 0 (s.w.pos c)⟩ else none) ∧
      t.comp.trigMark = (match (s.w.stage 0).src with
        | .chan c => some (c, ⟨planeRow (s.w.stage 0).level (s.w.pos c), rowHeld (s.w.stage 0).level (s.w.pos c)⟩)
        | .ext => none) ∧
      (s.w.persist ≠ .variable → t.planes = s.planes) ∧
      (s.w.persist = .variable → s.canonical = true →
        ∀ (c : Ch) (x r : Nat), t.cell c x r = s.cell c x r - (s.cell c x r * s.w.decay + 255) / 256)) ∧
  (∀ s : State,
    (s.due s.comp.nextPeriod = true →
      let level := if s.comp.dim = true then min s.w.dimLevel s.w.backlight else s.w.backlight
      ∃ t, exec .backlightPeriod s = .next t ∧ onlyTouches [.comp] s t ∧
        t.comp = { s.comp with level := level, pwm := decide (0 < level), nextPeriod := s.comp.nextPeriod + 51000,
                               pwmEnd := if level = 0 ∨ 255 ≤ level then none
                                 else some (s.comp.nextPeriod + BitVec.ofNat 48 (200 * level)) }) ∧
    (∀ e : Tick, s.comp.pwmEnd = some e → s.due e = true →
      ∃ t, exec .blPwmHighTimeEnd s = .next t ∧ onlyTouches [.comp] s t ∧
        t.comp = { s.comp with pwm := false, pwmEnd := none }))

/-- A pixel takes its colour from the first layer that gives one: the cursor cell while ON and SLOW; the overlay; the
markers; the planes of the waveform area in the order of DSP.ORDER, by band; the graticule; the background. Forming it
changes the attribute sets, the pixel sent and the place in the frame alone (06 R102 to R104, R118). A held marker is
coloured MARKER, another in band 15 of its channel; a ground marker points right from the left margin and a trigger
marker left from the right one, nine rows high about the row 40 + its plane row, ground markers in the order of
DSP.ORDER (06 R108 to R110). DSP.GRID lights the frame, the centre lines or the divisions (06 R107). DSP.ORDER numbers
the 24 orders of the four channels lexicographically (06 R104). -/
def Obligations.PixelsTakeTheFirstLayer : Prop :=
  (∀ (n : Nat) (s : State), s.comp.scan = some n → n < 384000 →
    let row := n / 800
    let col := n % 800
    ∃ t p, exec .pixelFormed s = .next t ∧ onlyTouches [.comp] s t ∧
      t.comp = { s.comp with rowSets := t.comp.rowSets, cellSet := t.comp.cellSet, scan := t.comp.scan,
                             pixel := some p } ∧
      t.comp.scan = (if n = 383999 then none else some (n + 1)) ∧ p.row = row ∧ p.col = col ∧
      (s.comp.cursor.on = true ∧ s.comp.slow = true ∧ row / 20 = s.comp.cursor.row ∧ col / 8 = s.comp.cursor.col →
        p.colour = s.comp.paletteColour 3) ∧
      (¬(s.comp.cursor.on = true ∧ s.comp.slow = true ∧ row / 20 = s.comp.cursor.row ∧ col / 8 = s.comp.cursor.col) →
        (∀ x, t.comp.overlayLayer row col = some x → p.colour = x) ∧
        (t.comp.overlayLayer row col = none →
          (∀ x, s.comp.markerLayer (drawOrder s.w.order) row col = some x → p.colour = x) ∧
          (s.comp.markerLayer (drawOrder s.w.order) row col = none →
            let lit := 50 ≤ col ∧ col ≤ 749 ∧ 40 ≤ row ∧ row ≤ 439 ∧ ∃ c : Ch, s.cell c (col - 50) (row - 40) ≠ 0
            (lit → ∃ before c after, drawOrder s.w.order = before ++ c :: after ∧
              s.cell c (col - 50) (row - 40) ≠ 0 ∧ (∀ c' ∈ before, s.cell c' (col - 50) (row - 40) = 0) ∧
              p.colour = s.comp.clutColour c (s.cell c (col - 50) (row - 40) / 16)) ∧
            (¬lit → p.colour = s.comp.paletteColour (if gridLit s.w.grid row col then 4 else 5)))))) ∧
  ((∀ n < 24, (drawOrder n).Perm Ch.all) ∧
    (∀ m n : Nat, m < n → n < 24 → (drawOrder m).map Ch.num < (drawOrder n).map Ch.num) ∧
    drawOrder 0 = [.ch1, .ch2, .ch3, .ch4] ∧ drawOrder 6 = [.ch2, .ch1, .ch3, .ch4] ∧
    drawOrder 17 = [.ch3, .ch4, .ch2, .ch1] ∧ drawOrder 23 = [.ch4, .ch3, .ch2, .ch1]) ∧
  (∀ (c : Compositor) (order : List Ch) (row col : Nat),
    let colour := fun (ch : Ch) (m : Marker) => if m.held = true then c.paletteColour 6 else c.clutColour ch 15
    let ground := fun (ch : Ch) (m : Marker) => c.ground.get ch = some m ∧ 42 ≤ col ∧
      ∃ j ≤ 4, (row = 40 + m.row + j ∨ row + j = 40 + m.row) ∧ col ≤ 49 - j
    let trigger := fun (ch : Ch) (m : Marker) => c.trigMark = some (ch, m) ∧ col ≤ 757 ∧
      ∃ j ≤ 4, (row = 40 + m.row + j ∨ row + j = 40 + m.row) ∧ 750 + j ≤ col
    (∀ (before after : List Ch) (ch : Ch) (m : Marker), order = before ++ ch :: after →
      (∀ c' ∈ before, ∀ m', ¬ground c' m') → ground ch m → c.markerLayer order row col = some (colour ch m)) ∧
    ((∀ ch ∈ order, ∀ m, ¬ground ch m) →
      (∀ (ch : Ch) (m : Marker), trigger ch m → c.markerLayer order row col = some (colour ch m)) ∧
      ((∀ ch m, ¬trigger ch m) → c.markerLayer order row col = none))) ∧
  (∀ row col : Nat,
    let inside := 50 ≤ col ∧ col ≤ 749 ∧ 40 ≤ row ∧ row ≤ 439
    let frame := col = 50 ∨ col = 749 ∨ row = 40 ∨ row = 439
    (gridLit .full row col = true ↔
      inside ∧ (frame ∨ (∃ k, 1 ≤ k ∧ k ≤ 9 ∧ col = 50 + 70 * k) ∨ ∃ k, 1 ≤ k ∧ k ≤ 7 ∧ row = 40 + 50 * k)) ∧
    (gridLit .axes row col = true ↔ inside ∧ (frame ∨ col = 400 ∨ row = 240)) ∧
    (gridLit .frame row col = true ↔ inside ∧ frame) ∧ gridLit .none row col = false)

/-- A pixel of an overlay cell: none for the empty code or under BLANK; otherwise lit by the glyph or, under UNDERLINE,
on scan row 19, and unlit under BLINK while SLOW is OFF; a lit pixel takes INV_BACK under INVERSE and the text colour
otherwise, an unlit pixel the text colour under INVERSE alone (06 R111, R113 to R115). The set in force at a cell is the
row's starting set with the effect of every code before it in the row; the first pixel of a row's scan row 0 forms its
starting set, from DSP.TEXTATTR in row 0 and from the row above in every other (06 R112). -/
def Obligations.OverlayFollowsItsAttributes : Prop :=
  (∀ (c : Compositor) (row col : Nat),
    let code := c.codeAt (row / 20) (col / 8)
    let a := c.cellSet
    let text := if a.half = true then c.paletteColour 1 else c.paletteColour 0
    let glyph := (c.glyphRow code (row % 20)).getLsbD (7 - col % 8)
    let lit := (glyph = true ∨ a.underline = true ∧ row % 20 = 19) ∧ ¬(a.blink = true ∧ c.slow = false)
    (code = 0 ∨ a.blank = true → c.overlayLayer row col = none) ∧
    (code ≠ 0 → a.blank = false →
      (lit → c.overlayLayer row col = some (if a.inverse = true then c.paletteColour 2 else text)) ∧
      (¬lit → c.overlayLayer row col = if a.inverse = true then some text else none)) ∧
    (code ≤ 0x20 → glyph = false) ∧ (code = 0x7F → (glyph = true ↔ row % 20 ≤ 18)) ∧
    (0x80 ≤ code → glyph = (c.glyphs.get zeroByte ((code - 0x80) * 20 + row % 20)).getLsbD (7 - col % 8))) ∧
  ((∀ (c : Compositor) (row n : Nat) (a : Attr),
    c.flow row 0 a = a ∧ c.flow row (n + 1) a = attrStep (c.flow row n a) (c.codeAt row n)) ∧
  (∀ (a : Attr) (code : Nat),
    let x := attrStep a code
    x.half = (if code = 0x01 then true else if code = 0x02 ∨ code = 0x0B then false else a.half) ∧
    x.inverse = (if code = 0x03 then true else if code = 0x04 ∨ code = 0x0B then false else a.inverse) ∧
    x.underline = (if code = 0x05 then true else if code = 0x06 ∨ code = 0x0B then false else a.underline) ∧
    x.blank = (if code = 0x07 then true else if code = 0x08 ∨ code = 0x0B then false else a.blank) ∧
    x.blink = (if code = 0x09 then true else if code = 0x0A ∨ code = 0x0B then false else a.blink)) ∧
  (∀ (n : Nat) (s : State), s.comp.scan = some n →
    let row := n / 800
    let col := n % 800
    ∃ t, exec .pixelFormed s = .next t ∧
      (∀ R : Nat, t.comp.rowSet R =
        if row % 20 = 0 ∧ col = 0 ∧ R = row / 20 then
          (if R = 0 then s.w.textAttr else s.comp.flow (R - 1) 100 (s.comp.rowSet (R - 1)))
        else s.comp.rowSet R) ∧
      t.comp.cellSet =
        (if col % 8 = 0 then s.comp.flow (row / 20) (col / 8) (t.comp.rowSet (row / 20)) else s.comp.cellSet)))

/-- LOAD_CORR writes zero and gain into the addressed entry and sets its loaded flag (01 R3). LOAD_CLUT replaces the 16
colours of one channel, LOAD_PALETTE the 8 fixed colours, LOAD_GLYPH the 20 rows of one glyph of glyph RAM (06 R105,
R106, R115). Values outside their ranges are refused with RANGE and change nothing. -/
def Obligations.SampleAndScreenTablesLoad : Prop :=
  (∀ (tag channel range : Byte) (zero gain : BitVec 16) (s u : State),
    takes (.loadCorr tag channel range zero gain) s u →
    (∀ c : Ch, Ch.ofNum channel.toNat = some c → range.toNat ≤ 11 → zero.toNat ≤ 1023 → 1024 ≤ gain.toNat →
      gain.toNat ≤ 8191 →
      ∃ t, exec (.loadCorr tag channel range zero gain) s = .next t ∧ responds 0x10 tag .ok [] u t ∧
        onlyTouches [.sp, .link] u t ∧ t.sp = { u.sp with corr := t.sp.corr } ∧
        ∀ (c' : Ch) (r : Nat), r ≤ 11 →
          t.sp.entry c' r = if c' = c ∧ r = range.toNat then ⟨zero.toNat, gain.toNat, true⟩ else u.sp.entry c' r) ∧
    (Ch.ofNum channel.toNat = none ∨ 11 < range.toNat ∨ 1023 < zero.toNat ∨ gain.toNat < 1024 ∨ 8191 < gain.toNat →
      refusedWith (.loadCorr tag channel range zero gain) 0x10 tag .range s u)) ∧
  (∀ (tag a : Byte) (bytes : List Byte) (s u : State),
    (takes (.loadClut tag a bytes) s u →
      (∀ c : Ch, Ch.ofNum a.toNat = some c →
        ∃ t, exec (.loadClut tag a bytes) s = .next t ∧ responds 0x11 tag .ok [] u t ∧ onlyTouches [.comp, .link] u t ∧
          t.comp = { u.comp with clut := t.comp.clut } ∧
          ∀ (c' : Ch) (band : Nat), band < 16 →
            t.comp.clutColour c' band = if c' = c then colourAt bytes band else u.comp.clutColour c' band) ∧
      (Ch.ofNum a.toNat = none → refusedWith (.loadClut tag a bytes) 0x11 tag .range s u)) ∧
    (takes (.loadPalette tag bytes) s u →
      ∃ t, exec (.loadPalette tag bytes) s = .next t ∧ responds 0x12 tag .ok [] u t ∧ onlyTouches [.comp, .link] u t ∧
        t.comp = { u.comp with palette := t.comp.palette } ∧
        ∀ i < 8, t.comp.paletteColour i = colourAt bytes i) ∧
    (takes (.loadGlyph tag a bytes) s u →
      (0x80 ≤ a.toNat →
        ∃ t, exec (.loadGlyph tag a bytes) s = .next t ∧ responds 0x13 tag .ok [] u t ∧ onlyTouches [.comp, .link] u t ∧
          t.comp = { u.comp with glyphs := t.comp.glyphs } ∧
          ∀ (code j : Nat), j < 20 →
            t.comp.glyphRow code j = if code = a.toNat then bytes.getD j 0 else u.comp.glyphRow code j) ∧
      (a.toNat < 0x80 → refusedWith (.loadGlyph tag a bytes) 0x13 tag .range s u)))

/-- TEXT writes its codes from the start cell in row-major order, as many as fit before the last of the 2400 cells, and
answers how many; cells outside the run keep their codes, and a start outside the overlay is refused with RANGE (06
R116). -/
def Obligations.TextWritesItsRun : Prop :=
  ∀ (tag row column : Byte) (codes : List Byte) (s u : State), takes (.text tag row column codes) s u →
    (row.toNat ≤ 23 → column.toNat ≤ 99 →
      let start := 100 * row.toNat + column.toNat
      let n := min codes.length (2400 - start)
      ∃ t, exec (.text tag row column codes) s = .next t ∧
        responds 0x51 tag (if codes.length ≤ 2400 - start then .ok else .clamped) (beBytes 2 n) u t ∧
        onlyTouches [.comp, .link] u t ∧ t.comp = { u.comp with text := t.comp.text } ∧
        ∀ R C : Nat, C < 100 →
          t.comp.codeAt R C =
            if start ≤ 100 * R + C ∧ 100 * R + C < start + n then (codes.getD (100 * R + C - start) 0).toNat
            else u.comp.codeAt R C) ∧
    (23 < row.toNat ∨ 99 < column.toNat → refusedWith (.text tag row column codes) 0x51 tag .range s u)

/-- CURSOR stores its three values and PANEL_MODE the access state (06 R117, 07 R137); CLEAR_PERSIST clears every cell
of the four planes (05 R95). ALARM ON sounds the alarm for 250 ms where the flag is OFF, absorbing a click, and changes
nothing where it is ON; ALARM OFF clears the flag and leaves a sounding alarm (07 R144). A value outside its range is
refused with RANGE. -/
def Obligations.CursorModeAlarmAndClearTakeEffect : Prop :=
  (∀ (tag a row column : Byte) (s u : State),
    (takes (.cursor tag a row column) s u →
      (∀ on : Bool, yesNo a.toNat = some on → row.toNat ≤ 23 → column.toNat ≤ 99 →
        ∃ t, exec (.cursor tag a row column) s = .next t ∧ responds 0x52 tag .ok [] u t ∧
          onlyTouches [.comp, .link] u t ∧ t.comp = { u.comp with cursor := ⟨on, row.toNat, column.toNat⟩ }) ∧
      (1 < a.toNat ∨ 23 < row.toNat ∨ 99 < column.toNat →
        refusedWith (.cursor tag a row column) 0x52 tag .range s u)) ∧
    (takes (.panelMode tag a) s u →
      (∀ x : Access, Access.ofCode a.toNat = some x →
        ∃ t, exec (.panelMode tag a) s = .next t ∧ responds 0x53 tag .ok [] u t ∧
          onlyTouches [.panel, .link] u t ∧ t.panel = { u.panel with access := x }) ∧
      (2 < a.toNat → refusedWith (.panelMode tag a) 0x53 tag .range s u)) ∧
    (takes (.clearPersist tag) s u →
      ∃ t, exec (.clearPersist tag) s = .next t ∧ responds 0x50 tag .ok [] u t ∧ onlyTouches [.planes, .link] u t ∧
        ∀ (c : Ch) (x r : Nat), t.cell c x r = 0)) ∧
  (∀ (tag value : Byte) (s u : State), takes (.alarm tag value) s u →
    (value.toNat = 1 → u.panel.alarm = false →
      ∃ t, exec (.alarm tag value) s = .next t ∧ responds 0x55 tag .ok [] u t ∧ onlyTouches [.panel, .link] u t ∧
        t.panel = { u.panel with alarm := true, alarmEnd := some (u.lastTick + 250000000#48), click := none } ∧
        t.beep = true) ∧
    (value.toNat = 1 → u.panel.alarm = true → onlyAnswers (.alarm tag value) 0x55 tag [] s u) ∧
    (value.toNat = 0 →
      ∃ t, exec (.alarm tag value) s = .next t ∧ responds 0x55 tag .ok [] u t ∧ onlyTouches [.panel, .link] u t ∧
        t.panel = { u.panel with alarm := false }) ∧
    (1 < value.toNat → refusedWith (.alarm tag value) 0x55 tag .range s u))

/-! ## The front panel -/

/-- LOAD_ACTION replaces one whole entry where the checks of the rule pass, the slot, field and step present for the
actions that use them (07 R129, R130, 12 R220); LOAD_LED replaces one LED entry and LED its direct state (07 R141). A
load that fails a check is refused with RANGE and changes nothing. An LED is lit while its source indicates ON, while it
indicates SLOW or FAST and that phase is ON, and is driven at its entry's current, or at LOW in the dim state (07
R142). -/
def Obligations.PanelTablesLoad : Prop :=
  (∀ (tag control mode action slot field : Byte) (step : BitVec 32) (rep click threshold factor : Byte) (s u : State),
    takes (.loadAction tag control mode action slot field step rep click threshold factor) s u →
    (actionAllowed control.toNat mode.toNat action.toNat slot.toNat field.toNat rep.toNat click.toNat threshold.toNat
        factor.toNat →
      ∃ t, exec (.loadAction tag control mode action slot field step rep click threshold factor) s = .next t ∧
        responds 0x14 tag .ok [] u t ∧ onlyTouches [.panel, .link] u t ∧
        t.panel = { u.panel with actions := t.panel.actions } ∧
        (∀ code : Nat, code ≠ control.toNat → t.panel.action code = u.panel.action code) ∧
        ActMode.ofCode mode.toNat = some (t.panel.action control.toNat).mode ∧
        Action.ofCode action.toNat = some (t.panel.action control.toNat).action ∧
        (t.panel.action control.toNat).slot = (if action.toNat = 5 then some slot.toNat else none) ∧
        (t.panel.action control.toNat).field = (if 9 ≤ action.toNat then some field.toNat else none) ∧
        (t.panel.action control.toNat).step = (if 10 ≤ action.toNat then some step.toInt else none) ∧
        yesNo rep.toNat = some (t.panel.action control.toNat).rep ∧
        yesNo click.toNat = some (t.panel.action control.toNat).click ∧
        (t.panel.action control.toNat).threshold = threshold.toNat ∧
        (t.panel.action control.toNat).factor = factor.toNat) ∧
    (¬actionAllowed control.toNat mode.toNat action.toNat slot.toNat field.toNat rep.toNat click.toNat threshold.toNat
        factor.toNat →
      refusedWith (.loadAction tag control mode action slot field step rep click threshold factor) 0x14 tag .range s u)) ∧
  (∀ (tag led source direct current : Byte) (s u : State),
    (takes (.loadLed tag led source direct current) s u →
      (led.toNat ≤ 31 → source.toNat ≤ 9 → direct.toNat ≤ 3 → current.toNat ≤ 1 →
        ∃ t, exec (.loadLed tag led source direct current) s = .next t ∧ responds 0x15 tag .ok [] u t ∧
          onlyTouches [.panel, .link] u t ∧ t.panel = { u.panel with leds := t.panel.leds } ∧
          LedSource.ofCode source.toNat = some (t.panel.led led.toNat).source ∧
          LedState.ofCode direct.toNat = some (t.panel.led led.toNat).direct ∧
          LedCurrent.ofCode current.toNat = some (t.panel.led led.toNat).current ∧
          ∀ i : Nat, i ≠ led.toNat → t.panel.led i = u.panel.led i) ∧
      (31 < led.toNat ∨ 9 < source.toNat ∨ 3 < direct.toNat ∨ 1 < current.toNat →
        refusedWith (.loadLed tag led source direct current) 0x15 tag .range s u)) ∧
    (takes (.led tag led direct) s u →
      (∀ d : LedState, LedState.ofCode direct.toNat = some d → led.toNat ≤ 31 →
        ∃ t, exec (.led tag led direct) s = .next t ∧ responds 0x54 tag .ok [] u t ∧
          onlyTouches [.panel, .link] u t ∧ t.panel = { u.panel with leds := t.panel.leds } ∧
          t.panel.led led.toNat = { u.panel.led led.toNat with direct := d } ∧
          ∀ i : Nat, i ≠ led.toNat → t.panel.led i = u.panel.led i) ∧
      (31 < led.toNat ∨ 3 < direct.toNat → refusedWith (.led tag led direct) 0x54 tag .range s u))) ∧
  (∀ (i : Nat) (s : State),
    let x := s.panel.led i
    let on := x.source = .direct ∧ x.direct = .on ∨ x.source = .run ∧ s.acq.run = .run ∨
      x.source = .single ∧ s.acq.run = .single ∨ (∃ c, x.source = .chan c ∧ s.w.enabled c = true) ∨
      x.source = .remote ∧ s.panel.access = .remote
    let slow := x.source = .direct ∧ x.direct = .slow ∨ x.source = .trigWait ∧ s.acq.state = .ready
    let fast := x.source = .direct ∧ x.direct = .fast ∨ x.source = .remote ∧ s.panel.access = .lockout ∨
      x.source = .storeBusy ∧ s.store.activity = .writing
    (s.ledLit i = true ↔ on ∨ slow ∧ s.comp.slow = true ∨ fast ∧ s.comp.fast = true) ∧
    s.ledCurrent i = (if s.comp.dim = true then .low else x.current))

/-- A scan reads every key: a reading that agrees sets the count to 0, a disagreeing one raises it, and the fourth in a
row changes the debounced state and produces PRESS or RELEASE, in ascending key code (07 R122, R123). -/
def Obligations.KeysAreDebounced : Prop :=
  ∀ (raw : BitVec 96) (s : State), s.due s.panel.nextScan = true →
    ∃ t, exec (.keyScan raw) s = .next t ∧ onlyTouches [.panel, .trg] s t ∧ arrivedAt s.panel.nextScan s t ∧
      t.panel = { s.panel with keys := t.panel.keys, events := t.panel.events,
                               nextScan := s.panel.nextScan + 2000000 } ∧
      (∀ k : Nat, k < 96 →
        (raw.getLsbD k = (s.panel.key k).pressed → t.panel.key k = { s.panel.key k with count := 0 }) ∧
        (raw.getLsbD k ≠ (s.panel.key k).pressed → (s.panel.key k).count < 3 →
          t.panel.key k = { s.panel.key k with count := (s.panel.key k).count + 1 }) ∧
        (raw.getLsbD k ≠ (s.panel.key k).pressed → 3 ≤ (s.panel.key k).count →
          t.panel.key k = { s.panel.key k with pressed := raw.getLsbD k, count := 0 })) ∧
      ∃ es, t.panel.events = s.panel.events ++ es ∧ List.Pairwise (fun x y : PanelEvent => x.code < y.code) es ∧
        ∀ x : PanelEvent, x ∈ es ↔
          x.code < 96 ∧ x.n = 0 ∧ x.kind = (if raw.getLsbD x.code then .press else .release) ∧
            raw.getLsbD x.code ≠ (s.panel.key x.code).pressed ∧ 3 ≤ (s.panel.key x.code).count

/-- A sampling compares each encoder's pair with its reference: the first only sets it; one step forward or backward in
the cycle 00, 10, 11, 01 counts, after a reversal from 0, and the fourth in one direction makes a detent held within
-127..+127; two lines changed set the partial count to 0 (07 R126, R127). The end of a window produces one TURN event
for each encoder whose count is not 0, in ascending number, accelerated where the count reaches a threshold other than
0, and sets every count to 0, keeping the partial counts (07 R127, R128). -/
def Obligations.EncodersTurn : Prop :=
  (∀ (phaseA phaseB : BitVec 8) (s : State), s.due s.panel.nextEnc = true →
    ∃ t, exec (.encoderSampling phaseA phaseB) s = .next t ∧ onlyTouches [.panel] s t ∧
      t.panel = { s.panel with encs := t.panel.encs, nextEnc := s.panel.nextEnc + 100000 } ∧
      ∀ e : Nat, e < 8 →
        let x := s.panel.enc e
        let y := t.panel.enc e
        let pair := (phaseA.getLsbD e, phaseB.getLsbD e)
        let next : Bool × Bool → Bool × Bool := fun p => (!p.2, p.1)
        y.ref = some pair ∧
        (x.ref = none ∨ x.ref = some pair → y.trans = x.trans ∧ y.detents = x.detents) ∧
        (∀ old : Bool × Bool, x.ref = some old →
          (pair.1 ≠ old.1 → pair.2 ≠ old.2 → y.trans = 0 ∧ y.detents = x.detents) ∧
          ∀ sign : Int, (sign = 1 ∧ pair = next old ∨ sign = -1 ∧ old = next pair) →
            let base : Int := if x.trans * sign < 0 then 0 else x.trans
            (base + sign = 4 * sign → y.trans = 0 ∧ y.detents = max (-127) (min 127 (x.detents + sign))) ∧
            (base + sign ≠ 4 * sign → -3 ≤ x.trans → x.trans ≤ 3 → y.trans = base + sign ∧ y.detents = x.detents))) ∧
  (∀ s : State, s.due s.panel.nextWindow = true →
    ∃ t, exec .windowEnd s = .next t ∧ onlyTouches [.panel, .trg] s t ∧ arrivedAt s.panel.nextWindow s t ∧
      t.panel = { s.panel with encs := t.panel.encs, events := t.panel.events,
                               nextWindow := s.panel.nextWindow + 20000000 } ∧
      (∀ e < 8, t.panel.enc e = { s.panel.enc e with detents := 0 }) ∧
      ∃ es, t.panel.events = s.panel.events ++ es ∧ List.Pairwise (fun x y : PanelEvent => x.code < y.code) es ∧
        ∀ x : PanelEvent, x ∈ es ↔
          ∃ e < 8, (s.panel.enc e).detents ≠ 0 ∧ x.kind = .turn ∧ x.code = 96 + e ∧
            x.n =
              let c := (s.panel.enc e).detents
              let a := s.panel.action (96 + e)
              if a.threshold = 0 ∨ c.natAbs < a.threshold then c else max (-127) (min 127 (c * a.factor)))

/-- The front event, where it is no wake and not consumed, has no local action under an entry of mode OFF or REPORT, nor
under LOCAL or BOTH, in every access state, where it calls for none: a RELEASE, a REPEAT of a key whose action is not
STEP, a PRESS under NONE or ADJUST or under TOGGLE of a field that is not two-valued, and a TURN under any action but
ADJUST (07 R131, R135; the TOGGLE is DEDUCED, log 19). A PRESS, RELEASE or TURN restarts the idle timer, a REPEAT does
not, and REPORT and BOTH queue one PANEL report of outcome NONE (07 R131, R132, R139). Under a mode other than OFF a
PRESS clicks for 2 ms where the entry and PNL.CLICK ask for it and no alarm sounds, and makes the key of a repeating
entry the repeat key with 400 ms to run; a RELEASE ends its own key's repeat under any mode; no other event touches the
click or the repeat (07 R124, R125, R143). For an event that waited, the click, the repeat, its end and the idle timer's
restart count from the handling, the model's choice (logs 38, 41, 45). -/
def Obligations.ReportedEventsQueueOneReport : Prop :=
  ∀ (e : PanelEvent) (rest : List PanelEvent) (i : Instr) (s : State), isEvent i e →
    s.panel.events = e :: rest → s.panelReady = true →
    (e.kind = .press ∨ e.kind = .turn → s.comp.dim = false) →
    (e.kind = .release → (s.panel.key e.code).consumed = false) →
    let a := s.panel.action e.code
    a.mode = .off ∨ a.mode = .report ∨ callsAction e a = false →
    ∃ t, exec i s = .next t ∧ onlyTouches [.panel, .link] s t ∧
      t.link = (if a.mode = .report ∨ a.mode = .both then s.link.enter (.panel e a.action .none .ok) else s.link) ∧
      t.panel = { s.panel with
        events := rest,
        click := if e.kind = .press ∧ a.mode ≠ .off ∧ a.click = true ∧ s.w.click = true ∧ s.panel.alarmEnd = none then
            some (s.lastTick + 2000000#48)
          else s.panel.click,
        repeatKey := if e.kind = .press ∧ a.mode ≠ .off ∧ a.rep = true then some (e.code, s.lastTick + 400000000#48)
          else if e.kind = .release ∧ s.panel.repeatKey.map (fun k => k.1) = some e.code then none
          else s.panel.repeatKey,
        idle := if e.kind = .repeat_ then s.panel.idle
          else if s.w.idleMinutes = 0 then none
          else some (s.lastTick + BitVec.ofNat 48 (s.w.idleMinutes * 60000000000)) }

/-- A PRESS under a mode other than OFF sounds a click for 2 ms where the entry and PNL.CLICK ask for it and no alarm
sounds, and a repeating entry makes its key the repeat key with 400 ms to run; each expiry then produces a REPEAT and
runs 50 ms more, or ends the repeat where the entry no longer asks for it (07 R124, R143). The model's choices: a PRESS
that waited counts its 2 ms and 400 ms from its handling (log 38), the restart counts from the expiry's row (log 30),
and a RELEASE that waits has not stopped the repeat (log 41). The idle timer's expiry outside the dim state enters it
and ends any repeat; a click's and the alarm's ends let BEEP fall, each leaving the other (07 R125, R139, R140, R143,
R144). -/
def Obligations.PanelTimersRunAndExpire : Prop :=
  (∀ (k : Nat) (rest : List PanelEvent) (s : State), k < 96 →
    (s.panel.events = ⟨.press, k, 0⟩ :: rest → s.panelReady = true → s.comp.dim = false →
      (s.panel.action k).mode ≠ .off →
      ∃ t, exec (.press k) s = .next t ∧ t.panel.events = rest ∧
        t.panel.click = (if (s.panel.action k).click = true ∧ s.w.click = true ∧ s.panel.alarmEnd = none then
          some (s.lastTick + 2000000#48) else s.panel.click) ∧
        t.panel.repeatKey = (if (s.panel.action k).rep = true then some (k, s.lastTick + 400000000#48)
          else s.panel.repeatKey)) ∧
    (∀ e : Tick, s.panel.repeatKey = some (k, e) → s.due e = true →
      ((s.panel.action k).mode ≠ .off → (s.panel.action k).rep = true →
        ∃ t, exec .repeatTimerExpiry s = .next t ∧ onlyTouches [.panel, .trg] s t ∧ arrivedAt e s t ∧
          t.panel = { s.panel with repeatKey := some (k, s.lastTick + 50000000#48),
                                   events := s.panel.events ++ [⟨.repeat_, k, 0⟩] }) ∧
      ((s.panel.action k).mode = .off ∨ (s.panel.action k).rep = false →
        ∃ t, exec .repeatTimerExpiry s = .next t ∧ onlyTouches [.panel] s t ∧
          t.panel = { s.panel with repeatKey := none }))) ∧
  (∀ (e : Tick) (s : State), s.due e = true →
    (s.panel.idle = some e → s.comp.dim = false →
      ∃ t, exec .idleTimerExpiry s = .next t ∧ onlyTouches [.comp, .panel] s t ∧ t.comp = { s.comp with dim := true } ∧
        t.panel = { s.panel with idle := none, repeatKey := none } ∧ ∀ j : Nat, t.ledCurrent j = .low) ∧
    (s.panel.click = some e →
      ∃ t, exec .clickEnd s = .next t ∧ onlyTouches [.panel] s t ∧ t.panel = { s.panel with click := none } ∧
        t.beep = s.panel.alarmEnd.isSome) ∧
    (s.panel.alarmEnd = some e →
      ∃ t, exec .alarmEnd s = .next t ∧ onlyTouches [.panel] s t ∧ t.panel = { s.panel with alarmEnd := none } ∧
        t.beep = s.panel.click.isSome))

/-- In the dim state the front PRESS or TURN is a wake: the dim state ends, the idle timer restarts, a WAKE report is
queued, a PRESS is marked consumed, and no action, PANEL report, click or repeat follows; the RELEASE of a consumed key
clears the mark and restarts the idle timer alone (07 R131, R139, R140). For an event that waited, all this is at its
handling, the model's choice (log 45). -/
def Obligations.WakesAreConsumed : Prop :=
  ∀ (rest : List PanelEvent) (s : State), s.panelReady = true →
    let idle := if s.w.idleMinutes = 0 then none
      else some (s.lastTick + BitVec.ofNat 48 (s.w.idleMinutes * 60000000000))
    (∀ k < 96, s.comp.dim = true → s.panel.events = ⟨.press, k, 0⟩ :: rest →
      ∃ t, exec (.press k) s = .next t ∧ onlyTouches [.comp, .panel, .link] s t ∧
        t.comp = { s.comp with dim := false } ∧ t.link = s.link.enter (.wake k .press) ∧
        t.panel = { s.panel with events := rest, idle := idle, keys := t.panel.keys } ∧
        ∀ j : Nat, t.panel.key j = if j = k then { s.panel.key k with consumed := true } else s.panel.key j) ∧
    (∀ (e : Nat) (n : Int), e < 8 → -127 ≤ n → n ≤ 127 → n ≠ 0 → s.comp.dim = true →
      s.panel.events = ⟨.turn, 96 + e, n⟩ :: rest →
      ∃ t, exec (.turn e n) s = .next t ∧ onlyTouches [.comp, .panel, .link] s t ∧
        t.comp = { s.comp with dim := false } ∧ t.link = s.link.enter (.wake (96 + e) .turn) ∧
        t.panel = { s.panel with events := rest, idle := idle }) ∧
    (∀ k < 96, s.panel.events = ⟨.release, k, 0⟩ :: rest → (s.panel.key k).consumed = true →
      ∃ t, exec (.release k) s = .next t ∧ onlyTouches [.panel] s t ∧
        t.panel = { s.panel with events := rest, idle := idle, keys := t.panel.keys } ∧
        ∀ j : Nat, t.panel.key j = if j = k then { s.panel.key k with consumed := false } else s.panel.key j)

/-- A TOGGLE, STEP or ADJUST under mode LOCAL or BOTH in the access state LOCAL changes its one field as the panel does,
and no other: TOGGLE to the value a two-valued field does not hold; STEP by the step and ADJUST by n times it, clamped
to the range or moved along the list. A change queues a FIELD report or updates the waiting one, before the PANEL report
of outcome TAKEN that mode BOTH asks for, and announces the field's class: LIVE nothing, but for a TRG.AUTOTIME that has
elapsed and for DSP.IDLE, which restarts or stops the idle timer; TRIG a fresh start of an enabled sequencer, DRAW the
clear of the planes it names, ACQ a clear of every plane, an idle Rasterizer, the marking or rebuild of the pool and,
outside STOPPED, a re-arm or, with the failing check's code, a stop whose RUNSTATE report comes last (02 R32, R37, R38,
03 R60 to R64, 05 R94, R96, 07 R131, R135, R139, 08 R153, R158; log 26 for that order). The click, the repeat key and
the idle timer follow the event as it is handled (07 R124, R143; logs 38, 45). -/
def Obligations.PanelChangesPlaceOneField : Prop :=
  ∀ (e : PanelEvent) (rest : List PanelEvent) (i : Instr) (id : Nat) (f : FieldInfo) (v : Int) (s : State),
    s.panel.events = e :: rest → s.panelReady = true → s.comp.dim = false → s.panel.access = .local →
    let a := s.panel.action e.code
    a.mode = .local ∨ a.mode = .both → a.field = some id → catalogue id = some f →
    let told := fun l : Link => if a.mode = .both then l.enter (.panel e a.action .taken .ok) else l
    (e.kind = .press ∧ e.n = 0 ∧ e.code < 96 ∧ i = .press e.code ∧ a.action = .toggle ∧ f.kind = .enumerated 2 ∧
        v = (if s.w.val id = 0 then 1 else 0) ∨
      e.kind = .press ∧ e.n = 0 ∧ e.code < 96 ∧ i = .press e.code ∧ a.action = .step ∧
        v = steppedValue f.kind (s.w.val id) (a.step.getD 0) ∨
      e.kind = .repeat_ ∧ e.n = 0 ∧ e.code < 96 ∧ i = .repeatKey e.code ∧ a.action = .step ∧
        v = steppedValue f.kind (s.w.val id) (a.step.getD 0) ∨
      e.kind = .turn ∧ 96 ≤ e.code ∧ e.code < 104 ∧ i = .turn (e.code - 96) e.n ∧ -127 ≤ e.n ∧ e.n ≤ 127 ∧ e.n ≠ 0 ∧
        a.action = .adjust ∧ v = steppedValue f.kind (s.w.val id) (e.n * a.step.getD 0)) →
    ∃ t, exec i s = .next t ∧ t.setup.shadow = s.setup.shadow ∧
      (∀ j : Nat, t.w.val j = if j = id then v else s.w.val j) ∧ t.panel = handledPanel e rest t.w s ∧
      setupAnnounced s t ∧
      (v = s.w.val id → onlyTouches [.panel, .link] s t ∧ t.link = told s.link) ∧
      (v ≠ s.w.val id →
        linkAfterChange s t (told (s.link.offerField id v)) ∧
        (f.cls = .live → onlyTouches [.setup, .trg, .panel, .link] s t ∧ t.trg = sequencerAfter false s t) ∧
        (f.cls = .trig → onlyTouches [.setup, .trg, .panel, .link] s t ∧ trigAnnounced s t) ∧
        (∀ planes : List Ch, f.cls = .draw planes → onlyTouches [.setup, .planes, .panel, .link] s t ∧
          ∀ (c : Ch) (x r : Nat), t.cell c x r = if c ∈ planes then 0 else s.cell c x r) ∧
        (f.cls = .acq → onlyTouches announcementReach s t ∧ acqAnnounced s t))

/-- The panel's RUN_STOP, SINGLE, FORCE, CLEAR_PERSIST, RECALL, DEFAULT, UNDO and LOCAL_RETURN under mode LOCAL or BOTH
in LOCAL: a start is refused with the failing check's code, and otherwise arms the buffer selected, ending with GONE a
stream that reads it (03 R42, R45, R58, 11 R210); RUN_STOP in RUN or SINGLE stops as the host's STOP does: the FILLING
buffer is FREE and every other one as it was, the group and the clip count are discarded, and the sequencer is disabled
with nothing pending, a running holdoff left (03 R44, 02 R38; logs 15, 44 as for STOP); a run-state change queues a
RUNSTATE report of cause PANEL, a placed setup its SETUP report, and the PANEL report follows with the outcome of the
rule, where the mode is BOTH or the outcome REFUSED (03 R46, 07 R132 to R134, R136). A RECALL meets a write in flight
BUSY, setting its collided mark, places slot 0 at once, is refused EMPTY or DAMAGED, begins the read of a VALID slot, or
is held while a slot is read (09 R167, R174, R175); the end of the read places a good record and reports RECALL and
TAKEN, or leaves the slot DAMAGED and refuses (09 R176), also where PANEL_MODE has been taken since (the model's choice:
log 39). A placed setup announces the classes of the fields it changes to the sequencer, the acquisition, the pool, the
Rasterizer and the planes (02 R37, 03 R60, R61, 05 R94, R96, 08 R156), and a changed DSP.IDLE restarts or stops the idle
timer (07 R139). A failed re-arm reports last (log 26). The click, the repeat key and the idle timer follow the PRESS as
it is handled (07 R124, R143; logs 38, 45). -/
def Obligations.PanelActionsAreTakenInLocal : Prop :=
  (∀ (k : Nat) (rest : List PanelEvent) (s : State), k < 96 → s.panel.events = ⟨.press, k, 0⟩ :: rest →
    s.panelReady = true → s.comp.dim = false → s.panel.access = .local →
    let a := s.panel.action k
    a.mode = .local ∨ a.mode = .both →
    let reported := fun (l : Link) (o : PanelOutcome) (code : ResultCode) =>
      if a.mode = .both ∨ o = .refused then l.enter (.panel ⟨.press, k, 0⟩ a.action o code) else l
    let n := a.slot.getD 0
    let offered : Offered := ⟨⟨.press, k, 0⟩, a.mode, a.action, n⟩
    ∃ t, exec (.press k) s = .next t ∧
      t.panel = { handledPanel ⟨.press, k, 0⟩ rest t.w s with offered := t.panel.offered } ∧
      (a.action ≠ .recall → t.panel.offered = none) ∧
      (∀ code, a.action = .runStop ∨ a.action = .single → s.acq.run = .stop → s.startCheck = some code →
        onlyTouches [.panel, .link] s t ∧ t.link = reported s.link .refused code) ∧
      (a.action = .runStop ∨ a.action = .single → s.acq.run = .stop → s.startCheck = none →
        onlyTouches [.sp, .trg, .acq, .pool, .smc, .panel, .link, .readout] s t ∧ startedSet s t ∧
        t.acq.run = (if a.action = .runStop then .run else .single) ∧ t.acq.state ≠ .stopped ∧
        t.link = reported (s.link.offerRunstate (.runstate t.acq.run t.acq.state .panel .ok)) .taken .ok) ∧
      (a.action = .runStop → s.acq.run ≠ .stop →
        onlyTouches [.sp, .trg, .acq, .pool, .panel, .link] s t ∧ acquisitionStopped s t ∧
        t.link = reported (s.link.offerRunstate (.runstate .stop .stopped .panel .ok)) .taken .ok) ∧
      (a.action = .single → s.acq.run = .run →
        onlyTouches [.acq, .panel, .link] s t ∧ t.acq = { s.acq with run := .single } ∧
        t.link = reported (s.link.offerRunstate (.runstate .single s.acq.state .panel .ok)) .taken .ok) ∧
      (a.action = .single → s.acq.run = .single → onlyTouches [.panel, .link] s t ∧
        t.link = reported s.link .none .ok) ∧
      (a.action = .force → s.acq.state = .ready ∨ s.acq.state = .arming →
        onlyTouches [.trg, .panel, .link] s t ∧ t.trg = { s.trg with forcePending := true } ∧
        t.link = reported s.link .taken .ok) ∧
      (a.action = .force → s.acq.state ≠ .ready → s.acq.state ≠ .arming →
        onlyTouches [.panel, .link] s t ∧ t.link = reported s.link .none .ok) ∧
      (a.action = .clearPersist →
        onlyTouches [.planes, .panel, .link] s t ∧ (∀ (c : Ch) (x r : Nat), t.cell c x r = 0) ∧
        t.link = reported s.link .taken .ok) ∧
      (a.action = .default → (∀ id : Nat, t.w.val id = defaultValue id) ∧ t.setup.shadow = s.setup.working ∧
        onlyTouches announcementReach s t ∧ setupAnnounced s t ∧
        linkAfterChange s t (reported (s.link.offerSetup .default none) .taken .ok)) ∧
      (a.action = .undo → t.setup.working = s.setup.shadow ∧ t.setup.shadow = s.setup.working ∧
        onlyTouches announcementReach s t ∧ setupAnnounced s t ∧
        linkAfterChange s t (reported (s.link.offerSetup .undo none) .taken .ok)) ∧
      (a.action = .recall →
        (s.store.activity = .writing →
          onlyTouches [.store, .panel, .link] s t ∧ t.panel.offered = none ∧
          t.store = { s.store with write := s.store.write.map (fun w => { w with collided := true }) } ∧
          t.link = reported s.link .refused .busy) ∧
        (s.store.activity = .idle → n = 0 → (∀ id : Nat, t.w.val id = defaultValue id) ∧
          t.setup.shadow = s.setup.working ∧ t.store = s.store ∧ t.panel.offered = none ∧
          onlyTouches announcementReach s t ∧ setupAnnounced s t ∧
          linkAfterChange s t (reported (s.link.offerSetup .recall (some 0)) .taken .ok)) ∧
        (s.store.activity = .idle → 1 ≤ n →
          ((s.store.slot n).state = .empty → onlyTouches [.panel, .link] s t ∧ t.panel.offered = none ∧
            t.link = reported s.link .refused .empty) ∧
          ((s.store.slot n).state = .damaged → onlyTouches [.panel, .link] s t ∧ t.panel.offered = none ∧
            t.link = reported s.link .refused .damaged) ∧
          ((s.store.slot n).state = .valid → onlyTouches [.store, .panel] s t ∧ t.panel.offered = some offered ∧
            t.store = { s.store with activity := .reading, reading := some ⟨n, true⟩ })) ∧
        (s.store.activity = .reading → onlyTouches [.store, .panel] s t ∧ t.panel.offered = some offered ∧
          t.store = { s.store with heldPanel := true })) ∧
      (a.action = .localReturn → onlyTouches [.panel, .link] s t ∧ t.link = reported s.link .none .ok)) ∧
  (∀ (upset : Upset) (o : Offered) (n : Nat) (s : State), upsetWf upset = true → s.store.activity = .reading →
    1 ≤ n → n ≤ 16 → s.store.reading = some ⟨n, true⟩ → s.panel.offered = some o → s.link.waiting = none →
    o.mode = .local ∨ o.mode = .both →
    let flash := (s.upsetFlash upset).flash
    let reported := fun (l : Link) (x : PanelOutcome) (code : ResultCode) =>
      if o.mode = .both ∨ x = .refused then l.enter (.panel o.event o.action x code) else l
    ∃ t, exec (.recallReadEnd upset) s = .next t ∧ t.flash = flash ∧ t.panel.offered = none ∧
      t.store.activity = .idle ∧ t.store.reading = none ∧
      (∀ (w : Setup) (c : Nat), readPlacement flash n = some (w, c) →
        t.setup.working = w ∧ t.setup.shadow = s.setup.working ∧
        onlyTouches (.flash :: .store :: announcementReach) s t ∧
        t.store = { s.store with activity := .idle, reading := none } ∧ setupAnnounced s t ∧
        t.panel = { s.panel with offered := none, idle := idleAfter s t } ∧
        linkAfterChange s t (reported (s.link.offerSetup .recall (some n)) .taken .ok)) ∧
      (readPlacement flash n = none →
        onlyTouches [.flash, .store, .panel, .link] s t ∧ t.panel = { s.panel with offered := none } ∧
        t.store = { s.store with activity := .idle, reading := none, slots := t.store.slots } ∧
        t.store.slot n = ⟨.damaged, []⟩ ∧ (∀ j : Nat, j ≠ n → t.store.slot j = s.store.slot j) ∧
        t.link = reported s.link .refused .damaged))

/-- In LOCKOUT no panel event changes the working setup, the run state or the access state; in REMOTE the one local
action taken is LOCAL_RETURN, under mode LOCAL or BOTH, which makes the state LOCAL, and nothing else does (07 R136). In
either state every other local action that an event calls for is withheld: under mode BOTH its PANEL report has outcome
SUPPRESSED, that of an event that calls for none NONE, and that of LOCAL_RETURN TAKEN, and mode LOCAL reports none of
them (07 R131, R132). A TOGGLE of a field that is not two-valued calls for none (07 R135; DEDUCED, log 19). The click,
the repeat and the idle timer are as in LOCAL (07 R136; logs 38, 41, 45 for events that waited). -/
def Obligations.LockoutAndRemoteSuppressActions : Prop :=
  (∀ (i : Instr) (s t : State),
    ((∃ k, i = .press k ∨ i = .release k ∨ i = .repeatKey k) ∨ (∃ e n, i = .turn e n)) → exec i s = .next t →
    (s.panel.access = .lockout → onlyTouches [.comp, .panel, .link] s t ∧ t.panel.access = .lockout) ∧
    (s.panel.access = .remote → onlyTouches [.comp, .panel, .link] s t ∧
      (t.panel.access = .local ∨ t.panel.access = .remote) ∧
      (t.panel.access = .local → ∃ (k : Nat) (rest : List PanelEvent), i = .press k ∧
        s.panel.events = ⟨.press, k, 0⟩ :: rest ∧ s.panelReady = true ∧ s.comp.dim = false ∧
        ((s.panel.action k).mode = .local ∨ (s.panel.action k).mode = .both) ∧
        (s.panel.action k).action = .localReturn))) ∧
  (∀ (e : PanelEvent) (rest : List PanelEvent) (i : Instr) (s : State), isEvent i e →
    s.panel.events = e :: rest → s.panelReady = true →
    (e.kind = .press ∨ e.kind = .turn → s.comp.dim = false) →
    (e.kind = .release → (s.panel.key e.code).consumed = false) →
    s.panel.access = .remote ∨ s.panel.access = .lockout →
    let a := s.panel.action e.code
    a.mode = .local ∨ a.mode = .both →
    let returns := e.kind = .press ∧ a.action = .localReturn ∧ s.panel.access = .remote
    let reported := fun o : PanelOutcome => if a.mode = .both then s.link.enter (.panel e a.action o .ok) else s.link
    ∃ t, exec i s = .next t ∧ onlyTouches [.panel, .link] s t ∧
      t.panel = { handledPanel e rest s.w s with access := t.panel.access } ∧
      (returns → t.panel.access = .local ∧ t.link = reported .taken) ∧
      (¬returns → t.panel.access = s.panel.access ∧
        (callsAction e a = true → t.link = reported .suppressed) ∧ (callsAction e a = false → t.link = reported .none)))

/-! ## The setups -/

/-- The stored value of an offered one (08 R149): a numeric field clamps it to its range; a list field takes the
smallest value not below it, or the largest where all are below; an enumerated field takes an index of its names and
refuses any other value. A panel STEP or ADJUST adds its delta to a numeric field and clamps the sum; on a list or
enumerated field it moves the value's place by the delta, held at the ends (07 R135, 08 R153). -/
def Obligations.FieldValuesFollowTheirKind : Prop :=
  ((∀ (lo hi v : Int), lo ≤ hi →
    ∃ u : Int, storedValue (.numeric lo hi) v = some u ∧ lo ≤ u ∧ u ≤ hi ∧ (v < lo → u = lo) ∧ (hi < v → u = hi) ∧
      (lo ≤ v → v ≤ hi → u = v)) ∧
  (∀ vs ∈ [decimValues, lengthValues, [2, 4, 8]], ∀ v : Int,
    ∃ u ∈ vs, storedValue (.list vs) v = some u ∧
      (v ≤ u ∧ (∀ x ∈ vs, v ≤ x → u ≤ x) ∨ (∀ x ∈ vs, x < v) ∧ ∀ x ∈ vs, x ≤ u)) ∧
  (∀ (n : Nat) (v : Int),
    storedValue (.enumerated n) v = if 0 ≤ v ∧ v < n then some v else none)) ∧
  ((∀ lo hi v delta : Int, steppedValue (.numeric lo hi) v delta =
    if v + delta < lo then lo else if hi < v + delta then hi else v + delta) ∧
  (∀ (n : Nat) (v delta : Int), 0 < n → steppedValue (.enumerated n) v delta = max 0 (min ((n : Int) - 1) (v + delta))) ∧
  (∀ vs ∈ [decimValues, lengthValues, [2, 4, 8]], ∀ (k : Nat) (v delta : Int), vs[k]? = some v →
    vs[(max 0 (min ((vs.length : Int) - 1) (k + delta))).toNat]? = some (steppedValue (.list vs) v delta)))

/-- SET_FIELD stores the value the catalogue gives for the offered one in its field and in no other, leaves the shadow,
and answers with what was stored, CLAMPED where that differs (08 R149); auto-remote follows a change (07 R138), and a
changed DSP.IDLE restarts or stops the idle timer (07 R139; log 43 for one that runs in the dim state). A FIELD report
that waits for the field is updated in place and none is queued (08 R158, 10 R194). A change announces its class: LIVE
reaches the auto timer where TRG.AUTOTIME has already elapsed, TRIG starts an enabled sequencer afresh, with what
TRG.MODE does to the auto timer, and DRAW clears the planes it names (02 R32, R37, 05 R94). Power-on recall holds it (08
R163), and an id outside the catalogue or an enumerated value outside its names is refused with RANGE. -/
def Obligations.SetFieldStoresOneField : Prop :=
  ∀ (tag field : Byte) (value : BitVec 64) (s u : State), takes (.setField tag field value) s u →
    (u.recalling = true → exec (.setField tag field value) s = .next (u.hold (.setField tag field value))) ∧
    (u.recalling = false →
      (∀ (f : FieldInfo) (v : Int), catalogue field.toNat = some f → storedValue f.kind value.toInt = some v →
        ∃ t, exec (.setField tag field value) s = .next t ∧
          answered 0x20 tag (if v = value.toInt then .ok else .clamped) (field :: signedBytes 8 v) u t ∧
          (∀ id : Nat, t.w.val id = if id = field.toNat then v else u.w.val id) ∧
          t.setup.shadow = u.setup.shadow ∧
          t.panel = { u.panel with
            access := if v ≠ u.w.val field.toNat ∧ t.w.autoRemote = true ∧ u.panel.access = .local then .remote
              else u.panel.access,
            idle := idleAfter u t } ∧
          t.mem = u.mem ∧ t.flash = u.flash ∧ t.store = u.store ∧ t.sp.corr = u.sp.corr ∧ t.pending = u.pending ∧
          (v = u.w.val field.toNat → onlyTouches [.link, .setup] u t) ∧
          (f.cls ≠ .acq → u.reportsCoalesced → t.link = { u.link with
            reports := updatedFields u t,
            resp := u.link.resp ++ [⟨0x20, tag, if v = value.toInt then .ok else .clamped, field :: signedBytes 8 v⟩] }) ∧
          (f.cls = .live → onlyTouches [.link, .setup, .trg, .panel] u t ∧
            let elapsed := ∃ x, u.trg.autoStart = some x ∧ u.w.autoTime ≠ t.w.autoTime ∧
              t.w.autoTime.toNat ≤ (u.lastTick - x).toNat
            (elapsed → t.trg = { u.trg with autoStart := none, autoPending := true }) ∧ (¬elapsed → t.trg = u.trg)) ∧
          (v ≠ u.w.val field.toNat →
            (f.cls = .trig → onlyTouches [.link, .setup, .trg, .panel] u t ∧ trigAnnounced u t) ∧
            (∀ planes : List Ch, f.cls = .draw planes → onlyTouches [.link, .setup, .planes, .panel] u t ∧
              ∀ (c : Ch) (x r : Nat), t.cell c x r = if c ∈ planes then 0 else u.cell c x r))) ∧
      (catalogue field.toNat = none → refusedWith (.setField tag field value) 0x20 tag .range s u) ∧
      (∀ f : FieldInfo, catalogue field.toNat = some f → storedValue f.kind value.toInt = none →
        refusedWith (.setField tag field value) 0x20 tag .range s u))

/-- SET_STAGE stores the eight values of one stage, each as its field stores it, in that stage's fields and in no
others, and leaves the shadow; a change of a field other than LEVEL starts an enabled sequencer afresh (02 R19, R37);
beside the working setup, the sequencer, the panel and the link nothing changes; waiting FIELD reports are updated in
place (08 R158); auto-remote follows a change of any field (07 R138); a stage above 7 or an enumerated value outside its
names is refused with RANGE and stores nothing (08 R151, R163). -/
def Obligations.SetStageStoresEightFields : Prop :=
  ∀ (tag stage : Byte) (src cond level hyst pol limit onmatch timeout : BitVec 64) (s u : State),
    let c := Instr.setStage tag stage src cond level hyst pol limit onmatch timeout
    let offered := [src.toInt, cond.toInt, level.toInt, hyst.toInt, pol.toInt, limit.toInt, onmatch.toInt,
      timeout.toInt]
    takes c s u →
    (u.recalling = true → exec c s = .next (u.hold c)) ∧
    (u.recalling = false →
      (stage.toNat ≤ 7 → (∀ k < 8, (storedValue (stageField k).kind (offered.getD k 0)).isSome = true) →
        ∃ t vs, exec c s = .next t ∧
          answered 0x22 tag (if vs = offered then .ok else .clamped) (stage :: vs.flatMap (signedBytes 8)) u t ∧
          vs.length = 8 ∧
          (∀ k < 8, storedValue (stageField k).kind (offered.getD k 0) = some (vs.getD k 0) ∧
            t.w.val (0x40 + 8 * stage.toNat + k) = vs.getD k 0) ∧
          (∀ id : Nat, ¬(0x40 + 8 * stage.toNat ≤ id ∧ id < 0x40 + 8 * stage.toNat + 8) → t.w.val id = u.w.val id) ∧
          (u.reportsCoalesced → t.link = { u.link with
            reports := updatedFields u t,
            resp := u.link.resp ++ [⟨0x22, tag, if vs = offered then .ok else .clamped,
              stage :: vs.flatMap (signedBytes 8)⟩] }) ∧
          onlyTouches [.setup, .trg, .panel, .link] u t ∧ t.panel = hostPanel u t ∧
          ((∃ k < 8, k ≠ 2 ∧ vs.getD k 0 ≠ u.w.val (0x40 + 8 * stage.toNat + k)) → trigAnnounced u t) ∧
          ((∀ k < 8, k ≠ 2 → vs.getD k 0 = u.w.val (0x40 + 8 * stage.toNat + k)) → t.trg = u.trg) ∧
          t.setup.shadow = u.setup.shadow) ∧
      (7 < stage.toNat ∨ (∃ k < 8, storedValue (stageField k).kind (offered.getD k 0) = none) →
        refusedWith c 0x22 tag .range s u))

/-- LOAD_SETUP places the stored value of each of its 102 values and answers the number clamped or snapped, or is
refused whole with RANGE; UNDO exchanges the working setup and the shadow; DEFAULT places the default setup. Each moves
the former working setup into the shadow and removes every waiting FIELD report; auto-remote follows a change (07 R138),
and a changed DSP.IDLE restarts or stops the idle timer (07 R139). The classes of the fields that change are announced,
each once: TRIG starts an enabled sequencer afresh, DRAW clears the planes named, and ACQ discards the picture, marks or
rebuilds the pool and outside STOPPED re-arms or, with a report that comes last, stops (02 R32, R37, R38, 03 R60 to R64,
05 R94, R96, 08 R156; log 26 for that order). Power-on recall holds each (08 R152, R158, R161 to R163). -/
def Obligations.WholeSetupsMoveTheWorkingSetup : Prop :=
  (∀ (tag : Byte) (values : List (BitVec 64)) (s u : State), takes (.loadSetup tag values) s u →
    let offered := values.map BitVec.toInt
    (u.recalling = true → exec (.loadSetup tag values) s = .next (u.hold (.loadSetup tag values))) ∧
    (u.recalling = false →
      ((∀ k < 102, ∃ f v, catalogue (fieldIds.getD k 0) = some f ∧ storedValue f.kind (offered.getD k 0) = some v) →
        ∃ t n, exec (.loadSetup tag values) s = .next t ∧
          answered 0x24 tag (if n = 0 then .ok else .clamped) [BitVec.ofNat 8 n] u t ∧
          n = ((List.range 102).filter (fun k =>
            decide (t.w.val (fieldIds.getD k 0) ≠ offered.getD k 0))).length ∧
          t.setup.shadow = u.setup.working ∧
          (∀ k < 102, ∀ f, catalogue (fieldIds.getD k 0) = some f →
            storedValue f.kind (offered.getD k 0) = some (t.w.val (fieldIds.getD k 0))) ∧
          (∀ r ∈ t.link.reports, r.body.isField = false) ∧
          onlyTouches announcementReach u t ∧
          setupAnnounced u t ∧ t.panel = hostPanel u t ∧
          linkAfterChange u t { u.link with
            reports := u.link.reports.filter (fun r => !r.body.isField),
            resp := u.link.resp ++ [⟨0x24, tag, if n = 0 then .ok else .clamped, [BitVec.ofNat 8 n]⟩] }) ∧
      ((∃ k < 102, ∃ f, catalogue (fieldIds.getD k 0) = some f ∧ storedValue f.kind (offered.getD k 0) = none) →
        refusedWith (.loadSetup tag values) 0x24 tag .range s u))) ∧
  (∀ (tag : Byte) (s u : State),
    (takes (.undo tag) s u →
      (u.recalling = true → exec (.undo tag) s = .next (u.hold (.undo tag))) ∧
      (u.recalling = false →
        ∃ t, exec (.undo tag) s = .next t ∧ answered 0x27 tag .ok [] u t ∧
          t.setup.working = u.setup.shadow ∧ t.setup.shadow = u.setup.working ∧
          (∀ r ∈ t.link.reports, r.body.isField = false) ∧
          onlyTouches announcementReach u t ∧
          setupAnnounced u t ∧ t.panel = hostPanel u t ∧
          linkAfterChange u t { u.link with
            reports := u.link.reports.filter (fun r => !r.body.isField),
            resp := u.link.resp ++ [⟨0x27, tag, .ok, []⟩] })) ∧
    (takes (.defaultSetup tag) s u →
      (u.recalling = true → exec (.defaultSetup tag) s = .next (u.hold (.defaultSetup tag))) ∧
      (u.recalling = false →
        ∃ t, exec (.defaultSetup tag) s = .next t ∧ answered 0x28 tag .ok [] u t ∧
          (∀ id : Nat, t.w.val id = defaultValue id) ∧ t.setup.shadow = u.setup.working ∧
          (∀ r ∈ t.link.reports, r.body.isField = false) ∧
          onlyTouches announcementReach u t ∧
          setupAnnounced u t ∧ t.panel = hostPanel u t ∧
          linkAfterChange u t { u.link with
            reports := u.link.reports.filter (fun r => !r.body.isField),
            resp := u.link.resp ++ [⟨0x28, tag, .ok, []⟩] })))

/-- A SET_FIELD that changes a field of class ACQ clears all planes and returns the Rasterizer to IDLE. With ACQ.BUFFERS
as it was, every NEW buffer becomes SHOWN and stale with its descriptor, the one being drawn SHOWN alone, and the
completion list keeps its order, less a buffer that the re-arm recycles; ACQ.BUFFERS rebuilds the pool. A grant of the
drawing abandoned is no longer wanted. A stream whose buffer is recycled, and any at a rebuild, ends with GONE (03 R58,
11 R210). In STOPPED the acquisition stays; in any other state the segment in progress is abandoned, the sequencer is
stopped as by STOP (02 R38; log 44 for the sample after it), and the start checks of the new values decide: where they
pass, the set is re-armed in the run state that was, in a buffer or waiting for one; where one fails, acquisition stops
and a RUNSTATE report of cause REARM_FAILED carries its code, behind the FIELD report updated in place (03 R60 to R64,
05 R94, R96, 08 R158; log 26 for that order; logs 15, 16 for the segment index and the set's number). -/
def Obligations.AcqChangesDiscardThePicture : Prop :=
  ∀ (tag field : Byte) (value : BitVec 64) (f : FieldInfo) (v : Int) (s u : State),
    takes (.setField tag field value) s u → u.recalling = false → catalogue field.toNat = some f → f.cls = .acq →
    storedValue f.kind value.toInt = some v → v ≠ u.w.val field.toNat →
    ∃ t, exec (.setField tag field value) s = .next t ∧
      (∀ id : Nat, t.w.val id = if id = field.toNat then v else u.w.val id) ∧
      onlyTouches announcementReach u t ∧ acqAnnounced u t ∧ (field.toNat = 0x06 → (t.pool.count : Int) = v) ∧
      linkAfterChange u t { u.link.updateField field.toNat v with
        resp := u.link.resp
          ++ [⟨0x20, tag, if v = value.toInt then .ok else .clamped, field :: signedBytes 8 v⟩] }

/-! ## The Setup Store -/

/-- SAVE, ERASE and SET_POWERON are held in READING and STARTING, refused with RANGE outside their slots or with a bad
name, and refused with BUSY, setting the collided mark, while a write is in flight; in IDLE each is accepted: the slot
becomes WRITING without a name, or the header's status WRITING, and the write record holds the snapshot, the name, the
tag, the ERASE phase and a limit of 60 ms (09 R167, R168, R170 to R172, R174). -/
def Obligations.StoreWritesBeginInIdle : Prop :=
  ∀ (tag slot : Byte) (name : List Byte) (s u : State),
    ∀ x ∈ [(Instr.save tag slot name, 0x25#8, StoreOp.save, name), (Instr.erase tag slot, 0x29#8, StoreOp.erase, []),
        (Instr.setPoweron tag slot, 0x2A#8, StoreOp.setPoweron, [])],
    takes x.1 s u →
    let bad := 16 < slot.toNat ∨ (x.2.2.1 ≠ .setPoweron ∧ slot.toNat = 0) ∨ x.2.2.2.all nameChar = false
    (u.store.activity = .reading ∨ u.store.activity = .starting → exec x.1 s = .next (u.hold x.1)) ∧
    (u.store.activity = .idle ∨ u.store.activity = .writing → bad → refusedWith x.1 x.2.1 tag .range s u) ∧
    (u.store.activity = .writing → ¬bad →
      ∃ t, exec x.1 s = .next t ∧ responds x.2.1 tag .busy [] u t ∧ onlyTouches [.store, .link] u t ∧
        t.store = { u.store with write := u.store.write.map (fun w => { w with collided := true }) }) ∧
    (u.store.activity = .idle → ¬bad →
      ∃ t w, exec x.1 s = .next t ∧ responds x.2.1 tag .ok [slot] u t ∧ onlyTouches [.store, .link] u t ∧
        t.store = { u.store with
          activity := .writing, write := some w, slots := t.store.slots, header := t.store.header } ∧ w.op = x.2.2.1 ∧ w.slot = slot.toNat ∧
        (x.2.2.1 = .save → w.snapshot = u.w ∧ w.name = name) ∧ w.tag = tag ∧ w.phase = .erase ∧
        w.limit = u.lastTick + 60000000#48 ∧ w.collided = false ∧
        (x.2.2.1 ≠ .setPoweron → t.store.slot slot.toNat = ⟨.writing, []⟩ ∧ t.store.header = u.store.header ∧
          ∀ n : Nat, n ≠ slot.toNat → t.store.slot n = u.store.slot n) ∧
        (x.2.2.1 = .setPoweron → t.store.header = ⟨u.store.header.slot, .writing⟩ ∧
          ∀ n : Nat, t.store.slot n = u.store.slot n))

/-- The flash's end of ERASE leaves the sector erased and begins PROGRAM, or VERIFY for an ERASE; its end of PROGRAM
leaves the record programmed and begins VERIFY; no other byte of the flash changes, but for those that the row's operand
says the outside world has changed (log 8). The end of VERIFY completes the write with what the read-back found, and the
expiry of the limit timer with FAIL: the slot becomes VALID with its name, EMPTY or DAMAGED, the header GOOD with the
new slot or BAD with slot 0; the activity becomes IDLE and the STORE report is queued with the tag and the collided mark
(09 R164, R169 to R173). -/
def Obligations.WritesPassTheirPhases : Prop :=
  (∀ (upset : Upset) (w : Write) (s : State), upsetWf upset = true → s.store.activity = .writing →
    s.store.write = some w →
    (w.phase = .erase →
      ∃ t, exec (.flashEraseEnd upset) s = .next t ∧ onlyTouches [.flash, .store] s t ∧
        t.store = { s.store with
          write := some { w with phase := if w.op = .erase then .verify else .program } } ∧
        ∀ a : Nat, a ∉ upset.map (fun c => c.1) →
          t.flash.get erasedByte a = if a / 1024 = w.sector then 0xFF else s.flash.get erasedByte a) ∧
    (w.phase = .program →
      ∃ t, exec (.flashProgramEnd upset) s = .next t ∧ onlyTouches [.flash, .store] s t ∧
        t.store = { s.store with write := some { w with phase := .verify } } ∧
        ∀ a : Nat, a ∉ upset.map (fun c => c.1) →
          t.flash.get erasedByte a =
            if 1024 * w.sector ≤ a ∧ a < 1024 * w.sector + w.bytes.length then w.bytes.getD (a - 1024 * w.sector) 0
            else s.flash.get erasedByte a)) ∧
  (∀ (upset : Upset) (w : Write) (s : State), upsetWf upset = true → s.store.activity = .writing →
    s.store.write = some w → 1 ≤ w.slot ∨ w.op = .setPoweron →
    ∀ x ∈ [(Instr.flashVerifyEnd upset, w.verified (s.upsetFlash upset).flash), (Instr.limitTimerExpiry upset, false)],
    (x.1 = .flashVerifyEnd upset → w.phase = .verify) → (x.1 = .limitTimerExpiry upset → s.due w.limit = true) →
    ∃ t, exec x.1 s = .next t ∧ onlyTouches [.flash, .store, .link, .trg] s t ∧ t.flash = (s.upsetFlash upset).flash ∧
      (x.1 = .flashVerifyEnd upset → t.trg = s.trg) ∧ (x.1 = .limitTimerExpiry upset → arrivedAt w.limit s t) ∧
      t.store = { s.store with activity := .idle, write := none, slots := t.store.slots, header := t.store.header } ∧
      (w.op = .setPoweron →
        t.store.header = (if x.2 = true then ⟨w.slot, .good⟩ else ⟨0, .bad⟩) ∧
        (∀ n : Nat, t.store.slot n = s.store.slot n) ∧
        t.link = s.link.enter (.storeHeader w.slot w.tag x.2 (if x.2 = true then .good else .bad) w.collided)) ∧
      (w.op ≠ .setPoweron →
        t.store.header = s.store.header ∧
        (∀ n : Nat, n ≠ w.slot → t.store.slot n = s.store.slot n) ∧
        t.store.slot w.slot =
          (if x.2 = false then ⟨.damaged, []⟩ else if w.op = .save then ⟨.valid, w.name⟩ else ⟨.empty, []⟩) ∧
        t.link = s.link.enter (.storeSlot w.op w.slot w.tag x.2 (t.store.slot w.slot).state w.collided)))

/-- A host RECALL is held in READING and STARTING; then it is decided in the order of the rule: RANGE above slot 16,
BUSY with the collided mark while a write is in flight, slot 0 places the default setup as DEFAULT does, an EMPTY or
DAMAGED slot is refused with its own code, and a VALID slot is read while the decoder waits (09 R167, R174, R175). The
end of the read, with no panel RECALL held behind it, answers it: a record found good and accepted is placed with the
number of values clamped or snapped, and any other record leaves the slot DAMAGED and the setups as they were (09 R176,
08 R160). A placed setup removes the waiting FIELD reports, announces the classes of the fields it changes, and is
followed by auto-remote and by what a changed DSP.IDLE does to the idle timer (02 R37, 03 R60, R61, 05 R94, R96, 07
R138, R139, 08 R156, R158; log 26 for the order of a failed re-arm's report). -/
def Obligations.HostRecallsAreDecidedAndPlaced : Prop :=
  (∀ (tag slot : Byte) (s u : State), let i := Instr.recall tag slot
    takes i s u →
    (u.store.activity = .reading ∨ u.store.activity = .starting → exec i s = .next (u.hold i)) ∧
    (u.store.activity = .idle ∨ u.store.activity = .writing → 16 < slot.toNat → refusedWith i 0x26 tag .range s u) ∧
    (u.store.activity = .writing → slot.toNat ≤ 16 →
      ∃ t, exec i s = .next t ∧ responds 0x26 tag .busy [] u t ∧ onlyTouches [.store, .link] u t ∧
        t.store = { u.store with write := u.store.write.map (fun w => { w with collided := true }) }) ∧
    (u.store.activity = .idle → slot.toNat = 0 →
      ∃ t, exec i s = .next t ∧ answered 0x26 tag .ok [0] u t ∧ (∀ id : Nat, t.w.val id = defaultValue id) ∧
        t.setup.shadow = u.setup.working ∧ (∀ r ∈ t.link.reports, r.body.isField = false) ∧
        onlyTouches announcementReach u t ∧
        setupAnnounced u t ∧ t.panel = hostPanel u t ∧
        linkAfterChange u t { u.link with
          reports := u.link.reports.filter (fun r => !r.body.isField),
          resp := u.link.resp ++ [⟨0x26, tag, .ok, [0]⟩] }) ∧
    (u.store.activity = .idle → 1 ≤ slot.toNat → slot.toNat ≤ 16 →
      ((u.store.slot slot.toNat).state = .empty → refusedWith i 0x26 tag .empty s u) ∧
      ((u.store.slot slot.toNat).state = .damaged → refusedWith i 0x26 tag .damaged s u) ∧
      ((u.store.slot slot.toNat).state = .valid →
        ∃ t, exec i s = .next t ∧ onlyTouches [.store, .link] u t ∧ t.link = { u.link with waiting := some i } ∧
          t.store = { u.store with activity := .reading, reading := some ⟨slot.toNat, false⟩ }))) ∧
  (∀ (upset : Upset) (tag slot : Byte) (s : State), upsetWf upset = true → s.store.activity = .reading →
    1 ≤ slot.toNat → s.store.reading = some ⟨slot.toNat, false⟩ → s.link.waiting = some (.recall tag slot) →
    s.store.heldPanel = false →
    let flash := (s.upsetFlash upset).flash
    (∀ (w : Setup) (n : Nat), readPlacement flash slot.toNat = some (w, n) →
      ∃ t, exec (.recallReadEnd upset) s = .next t ∧ t.flash = flash ∧
        answered 0x26 tag (if n = 0 then .ok else .clamped) [BitVec.ofNat 8 n] s t ∧ t.link.waiting = none ∧
        t.setup.working = w ∧ t.setup.shadow = s.setup.working ∧ (∀ r ∈ t.link.reports, r.body.isField = false) ∧
        t.store = { s.store with activity := .idle, reading := none } ∧
        onlyTouches (.flash :: .store :: announcementReach) s t ∧ setupAnnounced s t ∧ t.panel = hostPanel s t ∧
        linkAfterChange s t { s.link with
          waiting := none, reports := s.link.reports.filter (fun r => !r.body.isField),
          resp := s.link.resp ++ [⟨0x26, tag, if n = 0 then .ok else .clamped, [BitVec.ofNat 8 n]⟩] }) ∧
    (readPlacement flash slot.toNat = none →
      ∃ t, exec (.recallReadEnd upset) s = .next t ∧ onlyTouches [.flash, .store, .link] s t ∧ t.flash = flash ∧
        t.link = { s.link with waiting := none, resp := s.link.resp ++ [⟨0x26, tag, .damaged, []⟩] } ∧
        t.store = { s.store with activity := .idle, reading := none, slots := t.store.slots } ∧
        t.store.slot slot.toNat = ⟨.damaged, []⟩ ∧
        ∀ n : Nat, n ≠ slot.toNat → t.store.slot n = s.store.slot n))

/-- The end of power-on recall classifies the header and the sixteen slots from the flash, places the slot that the
header names where it is GOOD and the slot VALID and accepted, and the default setup otherwise, makes the shadow equal,
and queues the POWERUP report; FALLBACK is clear exactly where the named slot was placed, the header names 0 or it is
ERASED (09 R179, R180, 08 R163). The classes of the fields that the placement changes are announced: ACQ discards the
picture and marks the pool, or with ACQ.BUFFERS rebuilds it with B buffers FREE, and arms nothing, and DRAW clears the
planes it names (03 R63, R64, 08 R156); a DSP.IDLE that differs restarts the idle timer from the placement, or stops it
for 0 (07 R139, R145; log 43 for one that runs in the dim state). Nothing else changes, the panel access state included.
Stated with acquisition STOPPED, as after a reset, and no request held; a SLOT_INFO held meanwhile is then answered from
what was found, its response behind the POWERUP report, which an idle lane has begun to send (09 R180, 10 R197). -/
def Obligations.PowerOnRecallPlacesTheNamedSlot : Prop :=
  (∀ (upset : Upset) (s : State), upsetWf upset = true → s.store.activity = .starting → s.link.waiting = none →
    s.acq.state = .stopped →
    let flash := (s.upsetFlash upset).flash
    let h := classifyHeader (headerBytes flash)
    let recalled : Option (Setup × Nat) :=
      if h.status = .good ∧ h.slot ≠ 0 then readPlacement flash h.slot else none
    ∃ t, exec (.powerOnRecallEnd upset) s = .next t ∧ onlyTouches (.flash :: .store :: announcementReach) s t ∧
      t.flash = flash ∧ t.store = { s.store with activity := .idle, header := h, slots := t.store.slots } ∧
      (∀ n : Nat, 1 ≤ n → n ≤ 16 → t.store.slot n =
        if h.status = .good ∧ n = h.slot ∧ classifySlot (slotBytes flash n) = .valid ∧ recalled = none
        then ⟨.damaged, []⟩ else slotOfRecord (slotBytes flash n)) ∧
      t.setup.shadow = t.setup.working ∧
      (∀ w k, recalled = some (w, k) → t.setup.working = w) ∧
      (recalled = none → ∀ id : Nat, t.w.val id = defaultValue id) ∧
      setupAnnounced s t ∧ t.panel = { s.panel with idle := idleAfter s t } ∧
      t.link = s.link.enter
        (.powerup s.store.resetKind h.slot (if recalled.isSome then h.slot else 0)
          (decide (recalled = none ∧ h.status ≠ .erased ∧ (h.status = .good → h.slot ≠ 0))) h.status
          t.store.damagedCount)) ∧
  (∀ (upset : Upset) (tag : Byte) (s : State), upsetWf upset = true → s.store.activity = .starting →
    s.link.waiting = some (.slotInfo tag) → s.store.deferred = [] → s.acq.state = .stopped → s.link.lane = none →
    s.link.resp = [] → s.link.reports = [] →
    ∃ (t : State) (placed : Nat) (fallback : Bool) (x : Tx), exec (.powerOnRecallEnd upset) s = .next t ∧
      t.link.waiting = none ∧ t.link.reports = [] ∧ t.link.lane = some x ∧
      x.bytes = frameBytes 0x81 0 (Report.payload ⟨s.link.lost, .powerup s.store.resetKind t.store.header.slot placed
        fallback t.store.header.status t.store.damagedCount⟩) ∧
      t.link.resp = [⟨0x2B, tag, .ok, t.store.infoBytes⟩])

/-! ## The host link -/

/-- A word on the incoming lane, under alignment: SOF begins a frame, a data byte joins a partial frame of fewer than
2054 bytes, and EOF ends it; a longer frame, SOF, IDLE or a code error in it abandons it, which meets a LINKERR response
of tag 0, SOF beginning the next; a code error loses the alignment; outside a frame every other symbol is ignored. A
word that is a comma symbol restores the alignment. A frame that passes the checks enters a command FIFO of fewer than 8
frames at its end, and meets a full one with FULL under its own tag; any other meets LINKERR; an error response is
queued only where responses and reserved places number fewer than 16 (10 R183 to R186, R188, R189). The words are those
of the standard 8b/10b code, the control codes free (PRESUMED: log 36); each is balanced, or goes against the disparity
it begins at. -/
def Obligations.TheFramerAnswersEachFrame : Prop :=
  (∀ (w : LaneWord) (s : State), s.link.aligned = true →
    let old := s.link.rxDisparity
    let new := disparityAfter old w
    let queued := fun r : Resp =>
      if s.link.resp.length + s.reservedPlaces < 16 then s.link.resp ++ [r] else s.link.resp
    let runs := fun (i : Instr) (l : Link) => ∃ t, exec i s = .next t ∧ onlyTouches [.link] s t ∧ t.link = l
    (s.link.framer = .waiting →
      (wordSymbol old w = none → runs (.codeErrorOutsideFrame [w]) { s.link with aligned := false }) ∧
      (wordSymbol old w = some .sof →
        runs (.frameReceived [w]) { s.link with rxDisparity := new, framer := .receiving [] }) ∧
      (∀ x, wordSymbol old w = some x → x ≠ .sof → runs (.frameReceived [w]) { s.link with rxDisparity := new })) ∧
    (∀ bs : List Byte, s.link.framer = .receiving bs →
      let abandons := fun (framer : Framer) (aligned disparity : Bool) => runs (.frameAbandoned [w]) { s.link with
        framer := framer, aligned := aligned, rxDisparity := disparity, resp := queued ⟨0, 0, .linkerr, []⟩ }
      (wordSymbol old w = none → abandons .waiting false old) ∧
      (wordSymbol old w = some .sof → abandons (.receiving []) true new) ∧
      (wordSymbol old w = some .idle → abandons .waiting true new) ∧
      (∀ b : Byte, wordSymbol old w = some (.data b) →
        (bs.length < 2054 →
          runs (.frameReceived [w]) { s.link with rxDisparity := new, framer := .receiving (bs ++ [b]) }) ∧
        (2054 ≤ bs.length → abandons .waiting true new)) ∧
      (wordSymbol old w = some .eof →
        (∀ f : Frame, goodFrame bs = some f →
          (s.link.fifo.length < 8 → runs (.frameReceived [w])
            { s.link with rxDisparity := new, framer := .waiting, fifo := s.link.fifo ++ [f] }) ∧
          (8 ≤ s.link.fifo.length → runs (.frameReceived [w])
            { s.link with rxDisparity := new, framer := .waiting, resp := queued ⟨f.type, f.tag, .full, []⟩ })) ∧
        (goodFrame bs = none → runs (.frameReceived [w])
          { s.link with rxDisparity := new, framer := .waiting, resp := queued ⟨0, 0, .linkerr, []⟩ })))) ∧
  (∀ (f : Frame) (s : State), f.payload.length ≤ 2048 → s.link.aligned = true → s.link.framer = .waiting →
    s.link.fifo.length < 8 →
    let symbols := LaneSymbol.sof :: ((frameBytes f.type f.tag f.payload).map .data ++ [.eof])
    ∃ t, exec (.frameReceived (symbolWords s.link.rxDisparity symbols)) s = .next t ∧ onlyTouches [.link] s t ∧
      t.link = { s.link with rxDisparity := disparityOver s.link.rxDisparity symbols, fifo := s.link.fifo ++ [f] }) ∧
  (∀ (w : LaneWord) (s : State), s.link.aligned = false → s.link.framer = .waiting →
    ((∀ d, symbolWord d .idle ≠ w ∧ symbolWord d .sof ≠ w) → stays (.symbolAlignmentFound [w]) s) ∧
    (∀ (d : Bool) (x : LaneSymbol), x = .idle ∨ x = .sof → symbolWord d x = w →
      ∃ t, exec (.symbolAlignmentFound [w]) s = .next t ∧ onlyTouches [.link] s t ∧
        t.link = { s.link with aligned := true, rxDisparity := disparityAfter d w,
                               framer := if x = .sof then .receiving [] else .waiting })) ∧
  (∀ (rd : Bool) (x : LaneSymbol),
    onesIn (symbolWord rd x) = 5 ∨ onesIn (symbolWord rd x) = (if rd = true then 4 else 6)) ∧
  (∀ (rd : Bool) (w : LaneWord) (x : LaneSymbol), wordSymbol rd w = some x → symbolWord rd x = w)

/-- A report that is not merged enters a queue of fewer than 32 reports at its end, with the LOST mark exactly where
lost-pending is set, and clears lost-pending; a full queue discards it and sets lost-pending (10 R193, R196). A FIELD
report replaces the value, and a RUNSTATE report all, of the one that waits, which keeps its place and mark; a host
change updates a waiting FIELD report alone; a SETUP report removes the FIELD reports first (08 R158, 10 R194, R195). An
idle lane takes the first response, or with none the first report, or with neither the ready DATA frame, unless a
deferred RESET is due (09 R177, 10 R191); the IDLE in progress is sent whole before the frame's SOF, and a payload of p
bytes then occupies the lane for (p + 9) x 8 ticks, one symbol of 8 ticks after the other, at whose end the lane falls
free and sends IDLE (10 R183, R188, R197, 11 R207; logs 35, 36 for the instant and the grid of symbols). -/
def Obligations.ReportsEnterAndTheLaneTakesResponsesFirst : Prop :=
  (∀ (l : Link) (b : ReportBody),
    (l.reports.length < 32 →
      l.enter b = { l with reports := l.reports ++ [⟨l.lost, b⟩], lost := false }) ∧
    (32 ≤ l.reports.length → l.enter b = { l with lost := true })) ∧
  (∀ (l : Link) (id : Nat) (v : Int) (r : RunState) (a : AcqState) (c : RunCause) (code : ResultCode) (k : SetupKind)
      (slot : Option Nat),
    (∀ (older newer : List Report) (lost : Bool) (old : Int), l.reports = older ++ ⟨lost, .field id old⟩ :: newer →
      (∀ x ∈ older, x.body.isFieldOf id = false) →
      let updated := { l with reports := older ++ ⟨lost, .field id v⟩ :: newer }
      l.offerField id v = updated ∧ l.updateField id v = updated) ∧
    ((∀ x ∈ l.reports, x.body.isFieldOf id = false) →
      l.offerField id v = l.enter (.field id v) ∧ l.updateField id v = l) ∧
    (∀ (older newer : List Report) (old : Report), l.reports = older ++ old :: newer → old.body.isRunstate = true →
      (∀ x ∈ older, x.body.isRunstate = false) →
      l.offerRunstate (.runstate r a c code) =
        { l with reports := older ++ ⟨old.lost, .runstate r a c code⟩ :: newer }) ∧
    ((∀ x ∈ l.reports, x.body.isRunstate = false) →
      l.offerRunstate (.runstate r a c code) = l.enter (.runstate r a c code)) ∧
    l.offerSetup k slot =
      { l with reports := l.reports.filter (fun x => !x.body.isField) }.enter (.setup k slot)) ∧
  (∀ s : State,
    let now := if s.trg.begun = true then s.trg.tick else s.lastTick
    let begins := now + BitVec.ofNat 48 ((s.link.idleFrom - now).toNat % 8)
    let sent := fun (type tag : Byte) (payload : List Byte) =>
      some (Tx.mk (frameBytes type tag payload) (idleDisparity s.link.txDisparity ((begins - s.link.idleFrom).toNat / 8))
        (begins + BitVec.ofNat 48 ((payload.length + 9) * 8)))
    (s.resetDue = true → stays .transmissionStart s) ∧
    (s.link.lane = none → s.resetDue = false →
      s.laneWord = symbolWord s.sentDisparity .idle ∧ (begins - s.link.idleFrom).toNat % 8 = 0 ∧
      (∀ (r : Resp) (rest : List Resp), s.link.resp = r :: rest →
        ∃ t, exec .transmissionStart s = .next t ∧ onlyTouches [.link] s t ∧
          t.link = { s.link with resp := rest, lane := sent 0x80 r.tag r.payload }) ∧
      (∀ (r : Report) (rest : List Report), s.link.resp = [] → s.link.reports = r :: rest →
        ∃ t, exec .transmissionStart s = .next t ∧ onlyTouches [.link] s t ∧
          t.link = { s.link with reports := rest, lane := sent 0x81 0 r.payload }) ∧
      (∀ (f : DataFrame) (rest : List DataFrame), s.link.resp = [] → s.link.reports = [] →
        s.readout.frames = f :: rest →
        ∃ t, exec .transmissionStart s = .next t ∧ onlyTouches [.link, .readout] s t ∧
          t.link = { s.link with lane := sent 0x82 f.tag f.payload } ∧
          t.readout.frames = rest ∧ t.readout.words = s.readout.words.drop f.words.length ∧
          (f.status = .more → t.readout.stream = s.readout.stream.map (fun st => { st with sent := f.first + f.count })) ∧
          (f.status ≠ .more → t.readout.stream = s.readout.stream))) ∧
    (∀ x : Tx, s.link.lane = some x →
      let symbols := LaneSymbol.sof :: (x.bytes.map .data ++ [.eof, .idle])
      (∀ k < symbols.length, x.bytes.length ≤ 2054 →
        (now - (x.ends - BitVec.ofNat 48 (8 * symbols.length))).toNat / 8 = k →
        (symbolWords x.disparity symbols)[k]? = some s.laneWord) ∧
      (∀ k : Nat, 1 ≤ k → k < 8 → x.ends - BitVec.ofNat 48 (8 * symbols.length) = now + BitVec.ofNat 48 k →
        s.laneWord = symbolWord s.sentDisparity .idle) ∧
      (s.due x.ends = true →
        ∃ t, exec .transmissionEnd s = .next t ∧ onlyTouches [.link, .trg] s t ∧ arrivedAt x.ends s t ∧
          t.link = { s.link with lane := none, txDisparity := disparityOver x.disparity symbols, idleFrom := x.ends })))

/-- STATUS answers 37 bytes that hold the state at the instant it is taken, and changes nothing else (10 R190, 12 R216).
The tick counter's value is the number the next sample will carry (log 5); the segment and the column of an IDLE
Rasterizer are answered 0 (log 37). -/
def Obligations.StatusAnswersTheStateItFinds : Prop :=
  ∀ (tag : Byte) (s u : State), takes (.status tag) s u →
    ∃ d : List Byte, onlyAnswers (.status tag) 0x01 tag d s u ∧ d.length = 37 ∧
      d.take 19 = beBytes 6 u.trg.tick.toNat
        ++ [flagsByte [u.trg.enabled, u.trg.holdoff.isSome, u.trg.autoPending, u.trg.forcePending],
            BitVec.ofNat 8 u.trg.stage, BitVec.ofNat 8 u.acq.run.code, BitVec.ofNat 8 u.acq.state.code,
            u.acq.cur.elim 0xFF (BitVec.ofNat 8)]
        ++ beBytes 2 u.acq.segIdx ++ beBytes 4 u.acq.fill ++ beBytes 2 u.smc.fifo.length ∧
      (u.ras.drawing = none → (d.drop 19).take 7 = [0, 0xFF, 0, 0, 0, 0, 0]) ∧
      (∀ (g : Drawing) (x : Descriptor) (c : Ch) (r : Nat), u.ras.drawing = some g → (u.pool.buf g.buf).desc = some x →
        x.values.chans[g.place]? = some (c, r) →
        (d.drop 19).take 7 =
          [1, BitVec.ofNat 8 g.buf, BitVec.ofNat 8 c.num] ++ beBytes 2 g.seg ++ beBytes 2 g.col) ∧
      d.drop 26 = beBytes 4 u.comp.frame.toNat
        ++ [flagByte u.comp.dim, BitVec.ofNat 8 u.panel.access.code, flagByte u.panel.alarm,
            BitVec.ofNat 8 u.store.activity.code, BitVec.ofNat 8 u.link.fifo.length,
            BitVec.ofNat 8 u.link.reports.length, flagsByte [u.link.lost, u.readout.stream.isSome]]

/-- GET_FIELD, GET_SETUP, SLOT_INFO, BUFFERS, DESCRIBE and SEGMENTS answer what they find, in the layouts of 12 R216 and
R219, and change nothing else. An id outside the catalogue, another selector and an index not below B are refused with
RANGE, a FREE or FILLING buffer with STATE; SEGMENTS gives at most 100 entries, CLAMPED where fewer than asked;
SLOT_INFO is held in READING and STARTING (08 R150, 09 R181, 11 R200 to R202). -/
def Obligations.QueriesChangeNothing : Prop :=
  let stateCode := fun x : BufState => match x with
    | .free => 0 | .filling => 1 | .new => 2 | .drawing => 3 | .shown => (4 : Nat)
  (∀ (tag a : Byte) (s u : State),
    (takes (.getField tag a) s u →
      ((catalogue a.toNat).isSome = true → onlyAnswers (.getField tag a) 0x21 tag (a :: signedBytes 8 (u.w.val a.toNat)) s u) ∧
      (catalogue a.toNat = none → refusedWith (.getField tag a) 0x21 tag .range s u)) ∧
    (takes (.getSetup tag a) s u →
      (a.toNat = 0 → onlyAnswers (.getSetup tag a) 0x23 tag
        (fieldIds.flatMap (fun id => signedBytes 8 (u.setup.working.val id))) s u) ∧
      (a.toNat = 1 → onlyAnswers (.getSetup tag a) 0x23 tag
        (fieldIds.flatMap (fun id => signedBytes 8 (u.setup.shadow.val id))) s u) ∧
      (1 < a.toNat → refusedWith (.getSetup tag a) 0x23 tag .range s u)) ∧
    (takes (.slotInfo tag) s u →
      (u.store.activity = .reading ∨ u.store.activity = .starting →
        exec (.slotInfo tag) s = .next (u.hold (.slotInfo tag))) ∧
      (u.store.activity = .idle ∨ u.store.activity = .writing →
        onlyAnswers (.slotInfo tag) 0x2B tag
          ((List.range 17).flatMap (fun n => BitVec.ofNat 8 (u.store.slot n).state.code ::
              (if (u.store.slot n).state = .valid then (u.store.slot n).name else List.replicate 16 0))
            ++ [BitVec.ofNat 8 u.store.header.slot, BitVec.ofNat 8 u.store.header.status.code,
                BitVec.ofNat 8 u.store.activity.code]
            ++ u.store.write.elim [0xFF, 0, 0, 0]
                (fun w => [BitVec.ofNat 8 w.op.code, BitVec.ofNat 8 w.slot, BitVec.ofNat 8 w.phase.code,
                  flagByte w.collided])) s u))) ∧
  (∀ (tag buffer : Byte) (first count : BitVec 16) (s u : State),
    (takes (.buffers tag) s u → u.pool.completion.length ≤ 8 →
      ∃ d : List Byte, onlyAnswers (.buffers tag) 0x40 tag d s u ∧ d.length = 59 ∧
        d.head? = some (BitVec.ofNat 8 u.pool.count) ∧
        (∀ b < 8, (d.drop (1 + 6 * b)).take 6 =
          if b < u.pool.count then
            let x := u.pool.buf b
            let described := x.state ≠ .free ∧ x.state ≠ .filling ∧ x.desc.isSome = true
            [BitVec.ofNat 8 (stateCode x.state),
              BitVec.ofNat 8 ((if x.pinned = true then 1 else 0) + (if x.stale = true then 2 else 0)
                + (if described then 4 else 0))]
              ++ beBytes 4 (if described then x.desc.elim 0 (fun y => y.seq.toNat) else 0)
          else [0, 0, 0, 0, 0, 0]) ∧
        (d.drop 49).take 9 =
          BitVec.ofNat 8 u.pool.completion.length :: (u.pool.completion.map (BitVec.ofNat 8)
            ++ List.replicate (8 - u.pool.completion.length) 0xFF) ∧
        d.drop 58 = [u.readout.stream.elim 0xFF (fun st => BitVec.ofNat 8 st.buf)]) ∧
    (∀ i ∈ [(Instr.describe tag buffer, 0x41#8), (Instr.segments tag buffer first count, 0x42#8)],
      takes i.1 s u →
      (u.pool.count ≤ buffer.toNat → refusedWith i.1 i.2 tag .range s u) ∧
      (buffer.toNat < u.pool.count →
        (u.pool.buf buffer.toNat).state = .free ∨ (u.pool.buf buffer.toNat).state = .filling →
        refusedWith i.1 i.2 tag .state s u)) ∧
    (∀ d : Descriptor, buffer.toNat < u.pool.count → (u.pool.buf buffer.toNat).state ≠ .free →
      (u.pool.buf buffer.toNat).state ≠ .filling → (u.pool.buf buffer.toNat).desc = some d →
      (takes (.describe tag buffer) s u →
        onlyAnswers (.describe tag buffer) 0x41 tag
          ([buffer, BitVec.ofNat 8 (stateCode (u.pool.buf buffer.toNat).state),
              if (u.pool.buf buffer.toNat).pinned = true then 1 else 0]
            ++ beBytes 4 d.seq.toNat ++ [BitVec.ofNat 8 d.values.chans.length]
            ++ (d.values.chans.flatMap (fun c => [BitVec.ofNat 8 c.1.num, BitVec.ofNat 8 c.2])
              ++ List.replicate (8 - 2 * d.values.chans.length) 0)
            ++ [match d.values.mode with | .sample => 0#8 | .peak => 1 | .hires => 2]
            ++ beBytes 4 d.values.decim ++ beBytes 4 d.values.len ++ beBytes 4 d.values.stored
            ++ beBytes 4 d.values.pre ++ beBytes 2 d.values.segs
            ++ [BitVec.ofNat 8 ((if d.gapped = true then 1 else 0) + (if d.clipped = true then 2 else 0)
                + (if d.stale = true then 4 else 0))]) s u) ∧
      (takes (.segments tag buffer first count) s u →
        (d.values.segs ≤ first.toNat ∨ count.toNat = 0 →
          refusedWith (.segments tag buffer first count) 0x42 tag .range s u) ∧
        (first.toNat < d.values.segs → 0 < count.toNat →
          ∃ n : Nat, n = min (min count.toNat 100) (d.values.segs - first.toNat) ∧
            exec (.segments tag buffer first count) s = .next (u.withLink { u.link with
              resp := u.link.resp ++ [⟨0x42, tag, if n = count.toNat then .ok else .clamped,
                [buffer] ++ beBytes 4 d.seq.toNat ++ beBytes 2 first.toNat ++ [BitVec.ofNat 8 n]
                  ++ ((d.segs.drop first.toNat).take n).flatMap (fun e =>
                    beBytes 6 e.tick.toNat ++ beBytes 4 e.sub
                      ++ [match e.kind with | .sequence => 0#8 | .auto => 1 | .forced => 2]
                      ++ beBytes 4 e.origin ++ beBytes 2 e.clips ++ [if e.gapped = true then 1 else 0])⟩] })))))
end

