-- ==== Sys2Proof/Laws/State.lean ====
section
/-!
SUPPORT. One lemma for each field of the state and each replacement of a block.
-/

namespace Sys2Proof.Machine

/-! ## withSp -/

@[simp] theorem State.withSp_sp (s : State) (x : SamplePath) : (s.withSp x).sp = x := rfl
@[simp] theorem State.withSp_trg (s : State) (x : SamplePath) : (s.withSp x).trg = s.trg := rfl
@[simp] theorem State.withSp_acq (s : State) (x : SamplePath) : (s.withSp x).acq = s.acq := rfl
@[simp] theorem State.withSp_pool (s : State) (x : SamplePath) : (s.withSp x).pool = s.pool := rfl
@[simp] theorem State.withSp_smc (s : State) (x : SamplePath) : (s.withSp x).smc = s.smc := rfl
@[simp] theorem State.withSp_mem (s : State) (x : SamplePath) : (s.withSp x).mem = s.mem := rfl
@[simp] theorem State.withSp_ras (s : State) (x : SamplePath) : (s.withSp x).ras = s.ras := rfl
@[simp] theorem State.withSp_planes (s : State) (x : SamplePath) : (s.withSp x).planes = s.planes := rfl
@[simp] theorem State.withSp_comp (s : State) (x : SamplePath) : (s.withSp x).comp = s.comp := rfl
@[simp] theorem State.withSp_panel (s : State) (x : SamplePath) : (s.withSp x).panel = s.panel := rfl
@[simp] theorem State.withSp_setup (s : State) (x : SamplePath) : (s.withSp x).setup = s.setup := rfl
@[simp] theorem State.withSp_store (s : State) (x : SamplePath) : (s.withSp x).store = s.store := rfl
@[simp] theorem State.withSp_flash (s : State) (x : SamplePath) : (s.withSp x).flash = s.flash := rfl
@[simp] theorem State.withSp_link (s : State) (x : SamplePath) : (s.withSp x).link = s.link := rfl
@[simp] theorem State.withSp_readout (s : State) (x : SamplePath) : (s.withSp x).readout = s.readout := rfl
@[simp] theorem State.withSp_pending (s : State) (x : SamplePath) : (s.withSp x).pending = s.pending := rfl

/-! ## withTrg -/

@[simp] theorem State.withTrg_sp (s : State) (x : Trigger) : (s.withTrg x).sp = s.sp := rfl
@[simp] theorem State.withTrg_trg (s : State) (x : Trigger) : (s.withTrg x).trg = x := rfl
@[simp] theorem State.withTrg_acq (s : State) (x : Trigger) : (s.withTrg x).acq = s.acq := rfl
@[simp] theorem State.withTrg_pool (s : State) (x : Trigger) : (s.withTrg x).pool = s.pool := rfl
@[simp] theorem State.withTrg_smc (s : State) (x : Trigger) : (s.withTrg x).smc = s.smc := rfl
@[simp] theorem State.withTrg_mem (s : State) (x : Trigger) : (s.withTrg x).mem = s.mem := rfl
@[simp] theorem State.withTrg_ras (s : State) (x : Trigger) : (s.withTrg x).ras = s.ras := rfl
@[simp] theorem State.withTrg_planes (s : State) (x : Trigger) : (s.withTrg x).planes = s.planes := rfl
@[simp] theorem State.withTrg_comp (s : State) (x : Trigger) : (s.withTrg x).comp = s.comp := rfl
@[simp] theorem State.withTrg_panel (s : State) (x : Trigger) : (s.withTrg x).panel = s.panel := rfl
@[simp] theorem State.withTrg_setup (s : State) (x : Trigger) : (s.withTrg x).setup = s.setup := rfl
@[simp] theorem State.withTrg_store (s : State) (x : Trigger) : (s.withTrg x).store = s.store := rfl
@[simp] theorem State.withTrg_flash (s : State) (x : Trigger) : (s.withTrg x).flash = s.flash := rfl
@[simp] theorem State.withTrg_link (s : State) (x : Trigger) : (s.withTrg x).link = s.link := rfl
@[simp] theorem State.withTrg_readout (s : State) (x : Trigger) : (s.withTrg x).readout = s.readout := rfl
@[simp] theorem State.withTrg_pending (s : State) (x : Trigger) : (s.withTrg x).pending = s.pending := rfl

/-! ## withAcq -/

@[simp] theorem State.withAcq_sp (s : State) (x : Acq) : (s.withAcq x).sp = s.sp := rfl
@[simp] theorem State.withAcq_trg (s : State) (x : Acq) : (s.withAcq x).trg = s.trg := rfl
@[simp] theorem State.withAcq_acq (s : State) (x : Acq) : (s.withAcq x).acq = x := rfl
@[simp] theorem State.withAcq_pool (s : State) (x : Acq) : (s.withAcq x).pool = s.pool := rfl
@[simp] theorem State.withAcq_smc (s : State) (x : Acq) : (s.withAcq x).smc = s.smc := rfl
@[simp] theorem State.withAcq_mem (s : State) (x : Acq) : (s.withAcq x).mem = s.mem := rfl
@[simp] theorem State.withAcq_ras (s : State) (x : Acq) : (s.withAcq x).ras = s.ras := rfl
@[simp] theorem State.withAcq_planes (s : State) (x : Acq) : (s.withAcq x).planes = s.planes := rfl
@[simp] theorem State.withAcq_comp (s : State) (x : Acq) : (s.withAcq x).comp = s.comp := rfl
@[simp] theorem State.withAcq_panel (s : State) (x : Acq) : (s.withAcq x).panel = s.panel := rfl
@[simp] theorem State.withAcq_setup (s : State) (x : Acq) : (s.withAcq x).setup = s.setup := rfl
@[simp] theorem State.withAcq_store (s : State) (x : Acq) : (s.withAcq x).store = s.store := rfl
@[simp] theorem State.withAcq_flash (s : State) (x : Acq) : (s.withAcq x).flash = s.flash := rfl
@[simp] theorem State.withAcq_link (s : State) (x : Acq) : (s.withAcq x).link = s.link := rfl
@[simp] theorem State.withAcq_readout (s : State) (x : Acq) : (s.withAcq x).readout = s.readout := rfl
@[simp] theorem State.withAcq_pending (s : State) (x : Acq) : (s.withAcq x).pending = s.pending := rfl

/-! ## withPool -/

@[simp] theorem State.withPool_sp (s : State) (x : Pool) : (s.withPool x).sp = s.sp := rfl
@[simp] theorem State.withPool_trg (s : State) (x : Pool) : (s.withPool x).trg = s.trg := rfl
@[simp] theorem State.withPool_acq (s : State) (x : Pool) : (s.withPool x).acq = s.acq := rfl
@[simp] theorem State.withPool_pool (s : State) (x : Pool) : (s.withPool x).pool = x := rfl
@[simp] theorem State.withPool_smc (s : State) (x : Pool) : (s.withPool x).smc = s.smc := rfl
@[simp] theorem State.withPool_mem (s : State) (x : Pool) : (s.withPool x).mem = s.mem := rfl
@[simp] theorem State.withPool_ras (s : State) (x : Pool) : (s.withPool x).ras = s.ras := rfl
@[simp] theorem State.withPool_planes (s : State) (x : Pool) : (s.withPool x).planes = s.planes := rfl
@[simp] theorem State.withPool_comp (s : State) (x : Pool) : (s.withPool x).comp = s.comp := rfl
@[simp] theorem State.withPool_panel (s : State) (x : Pool) : (s.withPool x).panel = s.panel := rfl
@[simp] theorem State.withPool_setup (s : State) (x : Pool) : (s.withPool x).setup = s.setup := rfl
@[simp] theorem State.withPool_store (s : State) (x : Pool) : (s.withPool x).store = s.store := rfl
@[simp] theorem State.withPool_flash (s : State) (x : Pool) : (s.withPool x).flash = s.flash := rfl
@[simp] theorem State.withPool_link (s : State) (x : Pool) : (s.withPool x).link = s.link := rfl
@[simp] theorem State.withPool_readout (s : State) (x : Pool) : (s.withPool x).readout = s.readout := rfl
@[simp] theorem State.withPool_pending (s : State) (x : Pool) : (s.withPool x).pending = s.pending := rfl

/-! ## withSmc -/

@[simp] theorem State.withSmc_sp (s : State) (x : MemCtl) : (s.withSmc x).sp = s.sp := rfl
@[simp] theorem State.withSmc_trg (s : State) (x : MemCtl) : (s.withSmc x).trg = s.trg := rfl
@[simp] theorem State.withSmc_acq (s : State) (x : MemCtl) : (s.withSmc x).acq = s.acq := rfl
@[simp] theorem State.withSmc_pool (s : State) (x : MemCtl) : (s.withSmc x).pool = s.pool := rfl
@[simp] theorem State.withSmc_smc (s : State) (x : MemCtl) : (s.withSmc x).smc = x := rfl
@[simp] theorem State.withSmc_mem (s : State) (x : MemCtl) : (s.withSmc x).mem = s.mem := rfl
@[simp] theorem State.withSmc_ras (s : State) (x : MemCtl) : (s.withSmc x).ras = s.ras := rfl
@[simp] theorem State.withSmc_planes (s : State) (x : MemCtl) : (s.withSmc x).planes = s.planes := rfl
@[simp] theorem State.withSmc_comp (s : State) (x : MemCtl) : (s.withSmc x).comp = s.comp := rfl
@[simp] theorem State.withSmc_panel (s : State) (x : MemCtl) : (s.withSmc x).panel = s.panel := rfl
@[simp] theorem State.withSmc_setup (s : State) (x : MemCtl) : (s.withSmc x).setup = s.setup := rfl
@[simp] theorem State.withSmc_store (s : State) (x : MemCtl) : (s.withSmc x).store = s.store := rfl
@[simp] theorem State.withSmc_flash (s : State) (x : MemCtl) : (s.withSmc x).flash = s.flash := rfl
@[simp] theorem State.withSmc_link (s : State) (x : MemCtl) : (s.withSmc x).link = s.link := rfl
@[simp] theorem State.withSmc_readout (s : State) (x : MemCtl) : (s.withSmc x).readout = s.readout := rfl
@[simp] theorem State.withSmc_pending (s : State) (x : MemCtl) : (s.withSmc x).pending = s.pending := rfl

/-! ## withMem -/

@[simp] theorem State.withMem_sp (s : State) (x : Table SampleWord) : (s.withMem x).sp = s.sp := rfl
@[simp] theorem State.withMem_trg (s : State) (x : Table SampleWord) : (s.withMem x).trg = s.trg := rfl
@[simp] theorem State.withMem_acq (s : State) (x : Table SampleWord) : (s.withMem x).acq = s.acq := rfl
@[simp] theorem State.withMem_pool (s : State) (x : Table SampleWord) : (s.withMem x).pool = s.pool := rfl
@[simp] theorem State.withMem_smc (s : State) (x : Table SampleWord) : (s.withMem x).smc = s.smc := rfl
@[simp] theorem State.withMem_mem (s : State) (x : Table SampleWord) : (s.withMem x).mem = x := rfl
@[simp] theorem State.withMem_ras (s : State) (x : Table SampleWord) : (s.withMem x).ras = s.ras := rfl
@[simp] theorem State.withMem_planes (s : State) (x : Table SampleWord) : (s.withMem x).planes = s.planes := rfl
@[simp] theorem State.withMem_comp (s : State) (x : Table SampleWord) : (s.withMem x).comp = s.comp := rfl
@[simp] theorem State.withMem_panel (s : State) (x : Table SampleWord) : (s.withMem x).panel = s.panel := rfl
@[simp] theorem State.withMem_setup (s : State) (x : Table SampleWord) : (s.withMem x).setup = s.setup := rfl
@[simp] theorem State.withMem_store (s : State) (x : Table SampleWord) : (s.withMem x).store = s.store := rfl
@[simp] theorem State.withMem_flash (s : State) (x : Table SampleWord) : (s.withMem x).flash = s.flash := rfl
@[simp] theorem State.withMem_link (s : State) (x : Table SampleWord) : (s.withMem x).link = s.link := rfl
@[simp] theorem State.withMem_readout (s : State) (x : Table SampleWord) : (s.withMem x).readout = s.readout := rfl
@[simp] theorem State.withMem_pending (s : State) (x : Table SampleWord) : (s.withMem x).pending = s.pending := rfl

/-! ## withRas -/

@[simp] theorem State.withRas_sp (s : State) (x : Raster) : (s.withRas x).sp = s.sp := rfl
@[simp] theorem State.withRas_trg (s : State) (x : Raster) : (s.withRas x).trg = s.trg := rfl
@[simp] theorem State.withRas_acq (s : State) (x : Raster) : (s.withRas x).acq = s.acq := rfl
@[simp] theorem State.withRas_pool (s : State) (x : Raster) : (s.withRas x).pool = s.pool := rfl
@[simp] theorem State.withRas_smc (s : State) (x : Raster) : (s.withRas x).smc = s.smc := rfl
@[simp] theorem State.withRas_mem (s : State) (x : Raster) : (s.withRas x).mem = s.mem := rfl
@[simp] theorem State.withRas_ras (s : State) (x : Raster) : (s.withRas x).ras = x := rfl
@[simp] theorem State.withRas_planes (s : State) (x : Raster) : (s.withRas x).planes = s.planes := rfl
@[simp] theorem State.withRas_comp (s : State) (x : Raster) : (s.withRas x).comp = s.comp := rfl
@[simp] theorem State.withRas_panel (s : State) (x : Raster) : (s.withRas x).panel = s.panel := rfl
@[simp] theorem State.withRas_setup (s : State) (x : Raster) : (s.withRas x).setup = s.setup := rfl
@[simp] theorem State.withRas_store (s : State) (x : Raster) : (s.withRas x).store = s.store := rfl
@[simp] theorem State.withRas_flash (s : State) (x : Raster) : (s.withRas x).flash = s.flash := rfl
@[simp] theorem State.withRas_link (s : State) (x : Raster) : (s.withRas x).link = s.link := rfl
@[simp] theorem State.withRas_readout (s : State) (x : Raster) : (s.withRas x).readout = s.readout := rfl
@[simp] theorem State.withRas_pending (s : State) (x : Raster) : (s.withRas x).pending = s.pending := rfl

/-! ## withPlanes -/

@[simp] theorem State.withPlanes_sp (s : State) (x : PerCh (Table Nat)) : (s.withPlanes x).sp = s.sp := rfl
@[simp] theorem State.withPlanes_trg (s : State) (x : PerCh (Table Nat)) : (s.withPlanes x).trg = s.trg := rfl
@[simp] theorem State.withPlanes_acq (s : State) (x : PerCh (Table Nat)) : (s.withPlanes x).acq = s.acq := rfl
@[simp] theorem State.withPlanes_pool (s : State) (x : PerCh (Table Nat)) : (s.withPlanes x).pool = s.pool := rfl
@[simp] theorem State.withPlanes_smc (s : State) (x : PerCh (Table Nat)) : (s.withPlanes x).smc = s.smc := rfl
@[simp] theorem State.withPlanes_mem (s : State) (x : PerCh (Table Nat)) : (s.withPlanes x).mem = s.mem := rfl
@[simp] theorem State.withPlanes_ras (s : State) (x : PerCh (Table Nat)) : (s.withPlanes x).ras = s.ras := rfl
@[simp] theorem State.withPlanes_planes (s : State) (x : PerCh (Table Nat)) : (s.withPlanes x).planes = x := rfl
@[simp] theorem State.withPlanes_comp (s : State) (x : PerCh (Table Nat)) : (s.withPlanes x).comp = s.comp := rfl
@[simp] theorem State.withPlanes_panel (s : State) (x : PerCh (Table Nat)) : (s.withPlanes x).panel = s.panel := rfl
@[simp] theorem State.withPlanes_setup (s : State) (x : PerCh (Table Nat)) : (s.withPlanes x).setup = s.setup := rfl
@[simp] theorem State.withPlanes_store (s : State) (x : PerCh (Table Nat)) : (s.withPlanes x).store = s.store := rfl
@[simp] theorem State.withPlanes_flash (s : State) (x : PerCh (Table Nat)) : (s.withPlanes x).flash = s.flash := rfl
@[simp] theorem State.withPlanes_link (s : State) (x : PerCh (Table Nat)) : (s.withPlanes x).link = s.link := rfl
@[simp] theorem State.withPlanes_readout (s : State) (x : PerCh (Table Nat)) : (s.withPlanes x).readout = s.readout := rfl
@[simp] theorem State.withPlanes_pending (s : State) (x : PerCh (Table Nat)) : (s.withPlanes x).pending = s.pending := rfl

/-! ## withComp -/

@[simp] theorem State.withComp_sp (s : State) (x : Compositor) : (s.withComp x).sp = s.sp := rfl
@[simp] theorem State.withComp_trg (s : State) (x : Compositor) : (s.withComp x).trg = s.trg := rfl
@[simp] theorem State.withComp_acq (s : State) (x : Compositor) : (s.withComp x).acq = s.acq := rfl
@[simp] theorem State.withComp_pool (s : State) (x : Compositor) : (s.withComp x).pool = s.pool := rfl
@[simp] theorem State.withComp_smc (s : State) (x : Compositor) : (s.withComp x).smc = s.smc := rfl
@[simp] theorem State.withComp_mem (s : State) (x : Compositor) : (s.withComp x).mem = s.mem := rfl
@[simp] theorem State.withComp_ras (s : State) (x : Compositor) : (s.withComp x).ras = s.ras := rfl
@[simp] theorem State.withComp_planes (s : State) (x : Compositor) : (s.withComp x).planes = s.planes := rfl
@[simp] theorem State.withComp_comp (s : State) (x : Compositor) : (s.withComp x).comp = x := rfl
@[simp] theorem State.withComp_panel (s : State) (x : Compositor) : (s.withComp x).panel = s.panel := rfl
@[simp] theorem State.withComp_setup (s : State) (x : Compositor) : (s.withComp x).setup = s.setup := rfl
@[simp] theorem State.withComp_store (s : State) (x : Compositor) : (s.withComp x).store = s.store := rfl
@[simp] theorem State.withComp_flash (s : State) (x : Compositor) : (s.withComp x).flash = s.flash := rfl
@[simp] theorem State.withComp_link (s : State) (x : Compositor) : (s.withComp x).link = s.link := rfl
@[simp] theorem State.withComp_readout (s : State) (x : Compositor) : (s.withComp x).readout = s.readout := rfl
@[simp] theorem State.withComp_pending (s : State) (x : Compositor) : (s.withComp x).pending = s.pending := rfl

/-! ## withPanel -/

@[simp] theorem State.withPanel_sp (s : State) (x : Panel) : (s.withPanel x).sp = s.sp := rfl
@[simp] theorem State.withPanel_trg (s : State) (x : Panel) : (s.withPanel x).trg = s.trg := rfl
@[simp] theorem State.withPanel_acq (s : State) (x : Panel) : (s.withPanel x).acq = s.acq := rfl
@[simp] theorem State.withPanel_pool (s : State) (x : Panel) : (s.withPanel x).pool = s.pool := rfl
@[simp] theorem State.withPanel_smc (s : State) (x : Panel) : (s.withPanel x).smc = s.smc := rfl
@[simp] theorem State.withPanel_mem (s : State) (x : Panel) : (s.withPanel x).mem = s.mem := rfl
@[simp] theorem State.withPanel_ras (s : State) (x : Panel) : (s.withPanel x).ras = s.ras := rfl
@[simp] theorem State.withPanel_planes (s : State) (x : Panel) : (s.withPanel x).planes = s.planes := rfl
@[simp] theorem State.withPanel_comp (s : State) (x : Panel) : (s.withPanel x).comp = s.comp := rfl
@[simp] theorem State.withPanel_panel (s : State) (x : Panel) : (s.withPanel x).panel = x := rfl
@[simp] theorem State.withPanel_setup (s : State) (x : Panel) : (s.withPanel x).setup = s.setup := rfl
@[simp] theorem State.withPanel_store (s : State) (x : Panel) : (s.withPanel x).store = s.store := rfl
@[simp] theorem State.withPanel_flash (s : State) (x : Panel) : (s.withPanel x).flash = s.flash := rfl
@[simp] theorem State.withPanel_link (s : State) (x : Panel) : (s.withPanel x).link = s.link := rfl
@[simp] theorem State.withPanel_readout (s : State) (x : Panel) : (s.withPanel x).readout = s.readout := rfl
@[simp] theorem State.withPanel_pending (s : State) (x : Panel) : (s.withPanel x).pending = s.pending := rfl

/-! ## withSetup -/

@[simp] theorem State.withSetup_sp (s : State) (x : SetupCtl) : (s.withSetup x).sp = s.sp := rfl
@[simp] theorem State.withSetup_trg (s : State) (x : SetupCtl) : (s.withSetup x).trg = s.trg := rfl
@[simp] theorem State.withSetup_acq (s : State) (x : SetupCtl) : (s.withSetup x).acq = s.acq := rfl
@[simp] theorem State.withSetup_pool (s : State) (x : SetupCtl) : (s.withSetup x).pool = s.pool := rfl
@[simp] theorem State.withSetup_smc (s : State) (x : SetupCtl) : (s.withSetup x).smc = s.smc := rfl
@[simp] theorem State.withSetup_mem (s : State) (x : SetupCtl) : (s.withSetup x).mem = s.mem := rfl
@[simp] theorem State.withSetup_ras (s : State) (x : SetupCtl) : (s.withSetup x).ras = s.ras := rfl
@[simp] theorem State.withSetup_planes (s : State) (x : SetupCtl) : (s.withSetup x).planes = s.planes := rfl
@[simp] theorem State.withSetup_comp (s : State) (x : SetupCtl) : (s.withSetup x).comp = s.comp := rfl
@[simp] theorem State.withSetup_panel (s : State) (x : SetupCtl) : (s.withSetup x).panel = s.panel := rfl
@[simp] theorem State.withSetup_setup (s : State) (x : SetupCtl) : (s.withSetup x).setup = x := rfl
@[simp] theorem State.withSetup_store (s : State) (x : SetupCtl) : (s.withSetup x).store = s.store := rfl
@[simp] theorem State.withSetup_flash (s : State) (x : SetupCtl) : (s.withSetup x).flash = s.flash := rfl
@[simp] theorem State.withSetup_link (s : State) (x : SetupCtl) : (s.withSetup x).link = s.link := rfl
@[simp] theorem State.withSetup_readout (s : State) (x : SetupCtl) : (s.withSetup x).readout = s.readout := rfl
@[simp] theorem State.withSetup_pending (s : State) (x : SetupCtl) : (s.withSetup x).pending = s.pending := rfl

/-! ## withStore -/

@[simp] theorem State.withStore_sp (s : State) (x : Store) : (s.withStore x).sp = s.sp := rfl
@[simp] theorem State.withStore_trg (s : State) (x : Store) : (s.withStore x).trg = s.trg := rfl
@[simp] theorem State.withStore_acq (s : State) (x : Store) : (s.withStore x).acq = s.acq := rfl
@[simp] theorem State.withStore_pool (s : State) (x : Store) : (s.withStore x).pool = s.pool := rfl
@[simp] theorem State.withStore_smc (s : State) (x : Store) : (s.withStore x).smc = s.smc := rfl
@[simp] theorem State.withStore_mem (s : State) (x : Store) : (s.withStore x).mem = s.mem := rfl
@[simp] theorem State.withStore_ras (s : State) (x : Store) : (s.withStore x).ras = s.ras := rfl
@[simp] theorem State.withStore_planes (s : State) (x : Store) : (s.withStore x).planes = s.planes := rfl
@[simp] theorem State.withStore_comp (s : State) (x : Store) : (s.withStore x).comp = s.comp := rfl
@[simp] theorem State.withStore_panel (s : State) (x : Store) : (s.withStore x).panel = s.panel := rfl
@[simp] theorem State.withStore_setup (s : State) (x : Store) : (s.withStore x).setup = s.setup := rfl
@[simp] theorem State.withStore_store (s : State) (x : Store) : (s.withStore x).store = x := rfl
@[simp] theorem State.withStore_flash (s : State) (x : Store) : (s.withStore x).flash = s.flash := rfl
@[simp] theorem State.withStore_link (s : State) (x : Store) : (s.withStore x).link = s.link := rfl
@[simp] theorem State.withStore_readout (s : State) (x : Store) : (s.withStore x).readout = s.readout := rfl
@[simp] theorem State.withStore_pending (s : State) (x : Store) : (s.withStore x).pending = s.pending := rfl

/-! ## withFlash -/

@[simp] theorem State.withFlash_sp (s : State) (x : Table Byte) : (s.withFlash x).sp = s.sp := rfl
@[simp] theorem State.withFlash_trg (s : State) (x : Table Byte) : (s.withFlash x).trg = s.trg := rfl
@[simp] theorem State.withFlash_acq (s : State) (x : Table Byte) : (s.withFlash x).acq = s.acq := rfl
@[simp] theorem State.withFlash_pool (s : State) (x : Table Byte) : (s.withFlash x).pool = s.pool := rfl
@[simp] theorem State.withFlash_smc (s : State) (x : Table Byte) : (s.withFlash x).smc = s.smc := rfl
@[simp] theorem State.withFlash_mem (s : State) (x : Table Byte) : (s.withFlash x).mem = s.mem := rfl
@[simp] theorem State.withFlash_ras (s : State) (x : Table Byte) : (s.withFlash x).ras = s.ras := rfl
@[simp] theorem State.withFlash_planes (s : State) (x : Table Byte) : (s.withFlash x).planes = s.planes := rfl
@[simp] theorem State.withFlash_comp (s : State) (x : Table Byte) : (s.withFlash x).comp = s.comp := rfl
@[simp] theorem State.withFlash_panel (s : State) (x : Table Byte) : (s.withFlash x).panel = s.panel := rfl
@[simp] theorem State.withFlash_setup (s : State) (x : Table Byte) : (s.withFlash x).setup = s.setup := rfl
@[simp] theorem State.withFlash_store (s : State) (x : Table Byte) : (s.withFlash x).store = s.store := rfl
@[simp] theorem State.withFlash_flash (s : State) (x : Table Byte) : (s.withFlash x).flash = x := rfl
@[simp] theorem State.withFlash_link (s : State) (x : Table Byte) : (s.withFlash x).link = s.link := rfl
@[simp] theorem State.withFlash_readout (s : State) (x : Table Byte) : (s.withFlash x).readout = s.readout := rfl
@[simp] theorem State.withFlash_pending (s : State) (x : Table Byte) : (s.withFlash x).pending = s.pending := rfl

/-! ## withLink -/

@[simp] theorem State.withLink_sp (s : State) (x : Link) : (s.withLink x).sp = s.sp := rfl
@[simp] theorem State.withLink_trg (s : State) (x : Link) : (s.withLink x).trg = s.trg := rfl
@[simp] theorem State.withLink_acq (s : State) (x : Link) : (s.withLink x).acq = s.acq := rfl
@[simp] theorem State.withLink_pool (s : State) (x : Link) : (s.withLink x).pool = s.pool := rfl
@[simp] theorem State.withLink_smc (s : State) (x : Link) : (s.withLink x).smc = s.smc := rfl
@[simp] theorem State.withLink_mem (s : State) (x : Link) : (s.withLink x).mem = s.mem := rfl
@[simp] theorem State.withLink_ras (s : State) (x : Link) : (s.withLink x).ras = s.ras := rfl
@[simp] theorem State.withLink_planes (s : State) (x : Link) : (s.withLink x).planes = s.planes := rfl
@[simp] theorem State.withLink_comp (s : State) (x : Link) : (s.withLink x).comp = s.comp := rfl
@[simp] theorem State.withLink_panel (s : State) (x : Link) : (s.withLink x).panel = s.panel := rfl
@[simp] theorem State.withLink_setup (s : State) (x : Link) : (s.withLink x).setup = s.setup := rfl
@[simp] theorem State.withLink_store (s : State) (x : Link) : (s.withLink x).store = s.store := rfl
@[simp] theorem State.withLink_flash (s : State) (x : Link) : (s.withLink x).flash = s.flash := rfl
@[simp] theorem State.withLink_link (s : State) (x : Link) : (s.withLink x).link = x := rfl
@[simp] theorem State.withLink_readout (s : State) (x : Link) : (s.withLink x).readout = s.readout := rfl
@[simp] theorem State.withLink_pending (s : State) (x : Link) : (s.withLink x).pending = s.pending := rfl

/-! ## withReadout -/

@[simp] theorem State.withReadout_sp (s : State) (x : Readout) : (s.withReadout x).sp = s.sp := rfl
@[simp] theorem State.withReadout_trg (s : State) (x : Readout) : (s.withReadout x).trg = s.trg := rfl
@[simp] theorem State.withReadout_acq (s : State) (x : Readout) : (s.withReadout x).acq = s.acq := rfl
@[simp] theorem State.withReadout_pool (s : State) (x : Readout) : (s.withReadout x).pool = s.pool := rfl
@[simp] theorem State.withReadout_smc (s : State) (x : Readout) : (s.withReadout x).smc = s.smc := rfl
@[simp] theorem State.withReadout_mem (s : State) (x : Readout) : (s.withReadout x).mem = s.mem := rfl
@[simp] theorem State.withReadout_ras (s : State) (x : Readout) : (s.withReadout x).ras = s.ras := rfl
@[simp] theorem State.withReadout_planes (s : State) (x : Readout) : (s.withReadout x).planes = s.planes := rfl
@[simp] theorem State.withReadout_comp (s : State) (x : Readout) : (s.withReadout x).comp = s.comp := rfl
@[simp] theorem State.withReadout_panel (s : State) (x : Readout) : (s.withReadout x).panel = s.panel := rfl
@[simp] theorem State.withReadout_setup (s : State) (x : Readout) : (s.withReadout x).setup = s.setup := rfl
@[simp] theorem State.withReadout_store (s : State) (x : Readout) : (s.withReadout x).store = s.store := rfl
@[simp] theorem State.withReadout_flash (s : State) (x : Readout) : (s.withReadout x).flash = s.flash := rfl
@[simp] theorem State.withReadout_link (s : State) (x : Readout) : (s.withReadout x).link = s.link := rfl
@[simp] theorem State.withReadout_readout (s : State) (x : Readout) : (s.withReadout x).readout = x := rfl
@[simp] theorem State.withReadout_pending (s : State) (x : Readout) : (s.withReadout x).pending = s.pending := rfl

/-! ## withPending -/

@[simp] theorem State.withPending_sp (s : State) (x : List Instr) : (s.withPending x).sp = s.sp := rfl
@[simp] theorem State.withPending_trg (s : State) (x : List Instr) : (s.withPending x).trg = s.trg := rfl
@[simp] theorem State.withPending_acq (s : State) (x : List Instr) : (s.withPending x).acq = s.acq := rfl
@[simp] theorem State.withPending_pool (s : State) (x : List Instr) : (s.withPending x).pool = s.pool := rfl
@[simp] theorem State.withPending_smc (s : State) (x : List Instr) : (s.withPending x).smc = s.smc := rfl
@[simp] theorem State.withPending_mem (s : State) (x : List Instr) : (s.withPending x).mem = s.mem := rfl
@[simp] theorem State.withPending_ras (s : State) (x : List Instr) : (s.withPending x).ras = s.ras := rfl
@[simp] theorem State.withPending_planes (s : State) (x : List Instr) : (s.withPending x).planes = s.planes := rfl
@[simp] theorem State.withPending_comp (s : State) (x : List Instr) : (s.withPending x).comp = s.comp := rfl
@[simp] theorem State.withPending_panel (s : State) (x : List Instr) : (s.withPending x).panel = s.panel := rfl
@[simp] theorem State.withPending_setup (s : State) (x : List Instr) : (s.withPending x).setup = s.setup := rfl
@[simp] theorem State.withPending_store (s : State) (x : List Instr) : (s.withPending x).store = s.store := rfl
@[simp] theorem State.withPending_flash (s : State) (x : List Instr) : (s.withPending x).flash = s.flash := rfl
@[simp] theorem State.withPending_link (s : State) (x : List Instr) : (s.withPending x).link = s.link := rfl
@[simp] theorem State.withPending_readout (s : State) (x : List Instr) : (s.withPending x).readout = s.readout := rfl
@[simp] theorem State.withPending_pending (s : State) (x : List Instr) : (s.withPending x).pending = x := rfl

end Sys2Proof.Machine
end

