-- ==== Sys2Proof/Laws/Ops.lean ====
section
/-!
SUPPORT. What each shared operation can do, said once: the guards of rows and commands, the response queue, the report
queue, the blocks' replacements that later proofs cite instead of unfolding.
-/

namespace Sys2Proof.Machine

/-! ## Rows and commands -/

/-- A row with checked operands answers a next state exactly where they are well formed. -/
theorem guarded_next_iff (i : Instr) (run : State → State) (s t : State) :
    guarded i run s = .next t ↔ i.wf = true ∧ t = run s := by
  unfold guarded
  split
  · next h => simp [h, eq_comm]
  · next h => simp [h]

/-- A command's row ends in the command's effect where the decoder takes it, and in the same state where it does not. -/
theorem command_next_iff (i : Instr) (run : State → State) (s t : State) :
    command i run s = .next t ↔
      i.wf = true ∧ ((∃ u, s.takeFrame i = some u ∧ t = run u) ∨ (s.takeFrame i = none ∧ t = s)) := by
  unfold command
  rw [guarded_next_iff]
  cases h : s.takeFrame i <;> simp

/-- A command the decoder takes runs. -/
theorem command_of_takes {i : Instr} {s u : State} (h : takes i s u) (run : State → State) :
    command i run s = .next (run u) :=
  (command_next_iff i run s (run u)).mpr ⟨h.1, .inl ⟨u, h.2, rfl⟩⟩

/-- Every way the decoder takes a frame (10 R187): the FIFO's front frame that decodes to the command, or one that arrives
at an empty FIFO. Nothing but the command FIFO changes. -/
theorem takeFrame_cases {i : Instr} {s u : State} (h : s.takeFrame i = some u) :
    s.decoderFree = true ∧
      ((∃ g rest, s.link.fifo = g :: rest ∧ decodeFrame g = i ∧ u = s.withLink { s.link with fifo := rest }) ∨
       (s.link.fifo = [] ∧ s.link.aligned = true ∧ s.link.framer = .waiting ∧ u = s)) := by
  unfold State.takeFrame at h
  split at h
  · next hd =>
    refine ⟨hd, ?_⟩
    split at h
    · next g rest hf =>
      split at h
      · next hg => exact .inl ⟨g, rest, hf, hg, (Option.some.inj h).symm⟩
      · cases h
    · next hf =>
      split at h
      · next ha =>
        simp only [Bool.and_eq_true, decide_eq_true_eq] at ha
        exact .inr ⟨hf, ha.1, ha.2, (Option.some.inj h).symm⟩
      · cases h
  · cases h

/-- A held command changes nothing but what the decoder waits on. -/
theorem hold_spec (i : Instr) (s : State) :
    (s.hold i).link.waiting = some i ∧ (s.hold i).link.resp = s.link.resp ∧ onlyTouches [.link] s (s.hold i) := by
  refine ⟨rfl, rfl, rfl, ?_⟩
  intro b hb
  cases b <;> first | rfl | exact absurd (by simp) hb

/-- An answer adds one response and changes nothing else (10 R188, R189). -/
theorem answer_spec (s : State) (type tag : Byte) (code : ResultCode) (data : List Byte) :
    (∃ d, (s.answer type tag code data).link = { s.link with resp := s.link.resp ++ [⟨type, tag, code, d⟩] } ∧
      (d = data ∨ (d = [] ∧ code ≠ .ok ∧ code ≠ .clamped))) ∧
    onlyTouches [.link] s (s.answer type tag code data) := by
  refine ⟨⟨if code = .ok ∨ code = .clamped then data else [], rfl, ?_⟩, rfl, ?_⟩
  · split
    · exact .inl rfl
    · next h => exact .inr ⟨rfl, fun e => h (.inl e), fun e => h (.inr e)⟩
  · intro b hb
    cases b <;> first | rfl | exact absurd (by simp) hb

/-! ## The report queue (10 R193 to R196) -/

/-- A report that enters stands at the end and takes up lost-pending; one that a full queue discards sets it. -/
theorem enter_cases (l : Link) (b : ReportBody) :
    (l.reports.length < Config.reportDepth ∧ l.enter b = { l with reports := l.reports ++ [⟨l.lost, b⟩], lost := false }) ∨
    (Config.reportDepth ≤ l.reports.length ∧ l.enter b = { l with lost := true }) := by
  unfold Link.enter
  split
  · next h => exact .inl ⟨h, rfl⟩
  · next h => exact .inr ⟨by omega, rfl⟩

theorem enter_bounded (l : Link) (b : ReportBody) (h : l.reports.length ≤ Config.reportDepth) :
    (l.enter b).reports.length ≤ Config.reportDepth := by
  rcases enter_cases l b with ⟨h1, e⟩ | ⟨_, e⟩
  · rw [e]; simp only [List.length_append, List.length_cons, List.length_nil]; omega
  · rw [e]; exact h

/-- A merge keeps the number of reports. -/
theorem mergeReports_length (f : ReportBody → Option ReportBody) :
    ∀ rs rs' : List Report, mergeReports f rs = some rs' → rs'.length = rs.length := by
  intro rs
  induction rs with
  | nil => intro rs' h; cases h
  | cons r rest ih =>
    intro rs' h
    simp only [mergeReports] at h
    split at h
    · cases h; rfl
    · obtain ⟨xs, hx, rfl⟩ := Option.map_eq_some_iff.mp h
      simp [ih xs hx]

/-- A merge keeps every report's LOST mark (10 R194, R196). -/
theorem mergeReports_lost (f : ReportBody → Option ReportBody) :
    ∀ rs rs' : List Report, mergeReports f rs = some rs' → rs'.map (fun r => r.lost) = rs.map (fun r => r.lost) := by
  intro rs
  induction rs with
  | nil => intro rs' h; cases h
  | cons r rest ih =>
    intro rs' h
    simp only [mergeReports] at h
    split at h
    · cases h; rfl
    · obtain ⟨xs, hx, rfl⟩ := Option.map_eq_some_iff.mp h
      simp [ih xs hx]

theorem offerField_bounded (l : Link) (id : Nat) (v : Int) (h : l.reports.length ≤ Config.reportDepth) :
    (l.offerField id v).reports.length ≤ Config.reportDepth := by
  unfold Link.offerField
  split
  · next rs hm => exact (mergeReports_length _ _ _ hm).symm ▸ h
  · exact enter_bounded _ _ h

theorem updateField_bounded (l : Link) (id : Nat) (v : Int) (h : l.reports.length ≤ Config.reportDepth) :
    (l.updateField id v).reports.length ≤ Config.reportDepth := by
  unfold Link.updateField
  split
  · next rs hm => exact (mergeReports_length _ _ _ hm).symm ▸ h
  · exact h

theorem offerRunstate_bounded (l : Link) (b : ReportBody) (h : l.reports.length ≤ Config.reportDepth) :
    (l.offerRunstate b).reports.length ≤ Config.reportDepth := by
  unfold Link.offerRunstate
  split
  · next rs hm => exact (mergeReports_length _ _ _ hm).symm ▸ h
  · exact enter_bounded _ _ h

theorem offerSetup_bounded (l : Link) (k : SetupKind) (n : Option Nat) (h : l.reports.length ≤ Config.reportDepth) :
    (l.offerSetup k n).reports.length ≤ Config.reportDepth := by
  refine enter_bounded _ _ (Nat.le_trans ?_ h)
  exact List.length_filter_le _ _

/-! ## The writer FIFO (04 R71, R72) -/

/-- A word handed to the writer FIFO is appended, or discarded with the segment marked GAPPED; nothing else changes. -/
theorem handWord_cases (addr : Nat) (word : SampleWord) (s : State) :
    (s.smc.fifo.length < Config.writerFifoDepth ∧
      s.handWord addr word = s.withSmc { s.smc with fifo := s.smc.fifo ++ [⟨addr, word, s.acq.setId, s.acq.segIdx⟩] }) ∨
    (Config.writerFifoDepth ≤ s.smc.fifo.length ∧
      s.handWord addr word = s.withAcq { s.acq with seg := s.acq.seg.map (fun r => { r with gapped := true }) }) := by
  unfold State.handWord
  split
  · next h => exact .inl ⟨h, rfl⟩
  · next h => exact .inr ⟨by omega, rfl⟩

theorem handWord_bounded (addr : Nat) (word : SampleWord) (s : State) (h : s.smc.fifo.length ≤ Config.writerFifoDepth) :
    (s.handWord addr word).smc.fifo.length ≤ Config.writerFifoDepth := by
  rcases handWord_cases addr word s with ⟨h1, e⟩ | ⟨_, e⟩
  · rw [e]; simp; omega
  · rw [e]; exact h

/-- Words handed leave everything but the writer FIFO and the segment's GAPPED flag as it is. -/
theorem handWords_frame (ws : List (Nat × SampleWord)) :
    ∀ s : State, onlyTouches [.smc, .acq] s (s.handWords ws) ∧ (s.handWords ws).smc.grant = s.smc.grant ∧
      (s.handWords ws).acq = { s.acq with seg := (s.handWords ws).acq.seg } := by
  induction ws with
  | nil => intro s; exact ⟨⟨rfl, fun b _ => by cases b <;> rfl⟩, rfl, rfl⟩
  | cons w rest ih =>
    intro s
    obtain ⟨⟨hp, hb⟩, hg, ha⟩ := ih (s.handWord w.1 w.2)
    simp only [State.handWords]
    rcases handWord_cases w.1 w.2 s with ⟨_, e⟩ | ⟨_, e⟩ <;> rw [e] at hp hb hg ha ⊢ <;>
      exact ⟨⟨hp, fun b h => by have := hb b h; cases b <;> first | exact this | exact absurd (by simp) h⟩, hg, ha⟩

/-! ## Time -/

/-- An event taken at its tick changes nothing but whether the instant is that tick. -/
theorem arrive_spec (e : Tick) (s : State) :
    (s.arrive e).trg = { s.trg with begun := s.trg.begun || decide (e = s.trg.tick) } ∧
      onlyTouches [.trg] s (s.arrive e) := by
  refine ⟨rfl, rfl, ?_⟩
  intro b hb
  cases b <;> first | rfl | exact absurd (by simp) hb

/-! ## Panel events -/

/-- An event is taken only at the front of those that wait, and leaves it (07 R131). -/
theorem takeEvent_cases {e : PanelEvent} {s u : State} (h : s.takeEvent e = some u) :
    s.panelReady = true ∧ ∃ rest, s.panel.events = e :: rest ∧ u = s.withPanel { s.panel with events := rest } := by
  unfold State.takeEvent at h
  split at h
  · next hr =>
    refine ⟨hr, ?_⟩
    split at h
    · next f rest hf =>
      split at h
      · next he => exact ⟨rest, he ▸ hf, (Option.some.inj h).symm⟩
      · cases h
    · cases h
  · cases h

/-- A panel row whose event is at the front handles it. -/
theorem panelEvent_of_takes {i : Instr} {e : PanelEvent} {s u : State} (hw : i.wf = true) (h : s.takeEvent e = some u)
    (handle : State → State) : panelEvent i e handle s = .next (handle u) := by
  refine (guarded_next_iff _ _ _ _).mpr ⟨hw, ?_⟩
  simp [h]

/-! ## Values (08 R149, R153) -/

theorem clampInt_range (lo hi v : Int) (h : lo ≤ hi) : lo ≤ clampInt lo hi v ∧ clampInt lo hi v ≤ hi := by
  unfold clampInt
  split
  · omega
  · split <;> omega

theorem clampInt_id (lo hi v : Int) (h1 : lo ≤ v) (h2 : v ≤ hi) : clampInt lo hi v = v := by
  unfold clampInt
  rw [if_neg (by omega), if_neg (by omega)]

/-- A snapped value is one of the list's. -/
theorem snapTo_mem (x : Int) (rest : List Int) (v : Int) : snapTo (x :: rest) v ∈ x :: rest := by
  induction rest generalizing x with
  | nil => simp [snapTo]
  | cons y ys ih =>
    simp only [snapTo]
    split
    · simp
    · exact List.mem_cons_of_mem _ (ih y)

/-- A stored enumerated value is the offered one, an index of its names. -/
theorem storedValue_enumerated (n : Nat) (v u : Int) (h : storedValue (.enumerated n) v = some u) :
    u = v ∧ 0 ≤ v ∧ v < n := by
  unfold storedValue at h
  simp only at h
  split at h
  · next hv => exact ⟨(Option.some.inj h).symm, hv.1, hv.2⟩
  · cases h

end Sys2Proof.Machine
end

