-- ==== Sys2Proof/Laws/Table.lean ====
section
/-!
SUPPORT. Sparse tables: what a read gives after each write, and that every operation on a memory, a plane or a loaded
table keeps the canonical form.
-/

namespace Sys2Proof

variable {α : Type}

/-! ## Reading after writing -/

theorem Table.find_put_same (l : List (Nat × α)) (i : Nat) (v : α) : Table.find (Table.put l i v) i = some v := by
  induction l with
  | nil => simp [Table.put, Table.find]
  | cons c rest ih =>
    obtain ⟨k, w⟩ := c
    simp only [Table.put]
    split
    · simp [Table.find]
    · split
      · simp [Table.find]
      · next h1 h2 => simp [Table.find, ih, Ne.symm h2]

theorem Table.find_put_other (l : List (Nat × α)) (i j : Nat) (v : α) (h : j ≠ i) :
    Table.find (Table.put l i v) j = Table.find l j := by
  induction l with
  | nil => simp [Table.put, Table.find, h.symm]
  | cons c rest ih =>
    obtain ⟨k, w⟩ := c
    simp only [Table.put]
    split
    · simp [Table.find, h.symm]
    · split
      · next h2 => subst h2; simp [Table.find, h.symm]
      · simp [Table.find, ih]

theorem Table.find_drop_same (l : List (Nat × α)) (i : Nat) : Table.find (Table.drop l i) i = none := by
  induction l with
  | nil => rfl
  | cons c rest ih =>
    obtain ⟨k, w⟩ := c
    simp only [Table.drop]
    split
    · exact ih
    · next h => simp [Table.find, h, ih]

theorem Table.find_drop_other (l : List (Nat × α)) (i j : Nat) (h : j ≠ i) :
    Table.find (Table.drop l i) j = Table.find l j := by
  induction l with
  | nil => rfl
  | cons c rest ih =>
    obtain ⟨k, w⟩ := c
    simp only [Table.drop]
    split
    · next hk => subst hk; simp [Table.find, h.symm, ih]
    · simp [Table.find, ih]

@[simp] theorem Table.get_empty (d : Nat → α) (i : Nat) : (Table.empty : Table α).get d i = d i := rfl

@[simp] theorem Table.get_set_same [DecidableEq α] (t : Table α) (d : Nat → α) (i : Nat) (v : α) :
    (t.set d i v).get d i = v := by
  unfold Table.set Table.get
  split
  · next h => simp [Table.find_drop_same, h]
  · simp [Table.find_put_same]

theorem Table.get_set_other [DecidableEq α] (t : Table α) (d : Nat → α) (i j : Nat) (v : α) (h : j ≠ i) :
    (t.set d i v).get d j = t.get d j := by
  unfold Table.set Table.get
  split
  · simp [Table.find_drop_other _ _ _ h]
  · simp [Table.find_put_other _ _ _ _ h]

/-- A write changes the read of its own place and of no other. -/
theorem Table.get_set [DecidableEq α] (t : Table α) (d : Nat → α) (i j : Nat) (v : α) :
    (t.set d i v).get d j = if j = i then v else t.get d j := by
  by_cases h : j = i
  · subst h; simp
  · simp [h, Table.get_set_other]

/-- A run of writes leaves every place outside it alone. -/
theorem Table.get_setRun_outside [DecidableEq α] (d : Nat → α) (j : Nat) (vs : List α) :
    ∀ (t : Table α) (i : Nat), (j < i ∨ i + vs.length ≤ j) → (t.setRun d i vs).get d j = t.get d j := by
  induction vs with
  | nil => intros; rfl
  | cons v rest ih =>
    intro t i h
    simp only [List.length_cons] at h
    rw [Table.setRun, ih _ _ (by omega), Table.get_set_other _ _ _ _ _ (by omega)]

/-- A run of writes places its values one after another. -/
theorem Table.get_setRun_inside [DecidableEq α] (d : Nat → α) (vs : List α) :
    ∀ (t : Table α) (i k : Nat) (h : k < vs.length), (t.setRun d i vs).get d (i + k) = vs[k] := by
  induction vs with
  | nil => intro t i k h; simp at h
  | cons v rest ih =>
    intro t i k h
    cases k with
    | zero => rw [Table.setRun, Table.get_setRun_outside _ _ _ _ _ (by omega)]; simp
    | succ k =>
      rw [Table.setRun, show i + (k + 1) = i + 1 + k by omega, ih _ _ _ (by simpa using h)]
      rfl

/-- What is written one place after another is read back. -/
theorem Table.getRun_setRun [DecidableEq α] (d : Nat → α) (vs : List α) :
    ∀ (t : Table α) (i : Nat), (t.setRun d i vs).getRun d i vs.length = vs := by
  induction vs with
  | nil => intros; rfl
  | cons v rest ih =>
    intro t i
    simp only [List.length_cons, Table.getRun, Table.setRun, ih]
    rw [Table.get_setRun_outside _ _ _ _ _ (by omega)]
    simp

/-! ## The canonical form -/

theorem Table.wf_empty [DecidableEq α] (d : Nat → α) : (Table.empty : Table α).wf d = true := rfl

theorem Table.all_put (p : Nat × α → Bool) (l : List (Nat × α)) (i : Nat) (v : α) (hl : l.all p = true)
    (hv : p (i, v) = true) : (Table.put l i v).all p = true := by
  induction l with
  | nil => simp [Table.put, hv]
  | cons c rest ih =>
    obtain ⟨k, w⟩ := c
    simp only [List.all_cons, Bool.and_eq_true] at hl
    simp only [Table.put]
    split
    · simp only [List.all_cons, Bool.and_eq_true]; exact ⟨hv, hl.1, hl.2⟩
    · split
      · simp only [List.all_cons, Bool.and_eq_true]; exact ⟨hv, hl.2⟩
      · simp only [List.all_cons, Bool.and_eq_true]; exact ⟨hl.1, ih hl.2⟩

theorem Table.all_drop (p : Nat × α → Bool) (l : List (Nat × α)) (i : Nat) (hl : l.all p = true) :
    (Table.drop l i).all p = true := by
  induction l with
  | nil => rfl
  | cons c rest ih =>
    obtain ⟨k, w⟩ := c
    simp only [List.all_cons, Bool.and_eq_true] at hl
    simp only [Table.drop]
    split
    · exact ih hl.2
    · simp only [List.all_cons, Bool.and_eq_true]; exact ⟨hl.1, ih hl.2⟩

theorem Table.rising_put (l : List (Nat × α)) (i : Nat) (v : α) (h : Table.rising l = true) :
    Table.rising (Table.put l i v) = true := by
  induction l with
  | nil => rfl
  | cons c rest ih =>
    obtain ⟨k, w⟩ := c
    simp only [Table.rising, Bool.and_eq_true] at h
    simp only [Table.put]
    split
    · next hlt =>
      simp only [Table.rising, List.all_cons, Bool.and_eq_true, decide_eq_true_eq]
      refine ⟨⟨hlt, ?_⟩, h.1, h.2⟩
      rw [List.all_eq_true] at h ⊢
      intro c hc
      have := h.1 c hc
      simp only [decide_eq_true_eq] at this ⊢
      omega
    · split
      · next h1 h2 => subst h2; simp only [Table.rising, Bool.and_eq_true]; exact h
      · next h1 h2 =>
        simp only [Table.rising, Bool.and_eq_true]
        exact ⟨Table.all_put _ _ _ _ h.1 (by simp; omega), ih h.2⟩

theorem Table.rising_drop (l : List (Nat × α)) (i : Nat) (h : Table.rising l = true) :
    Table.rising (Table.drop l i) = true := by
  induction l with
  | nil => rfl
  | cons c rest ih =>
    obtain ⟨k, w⟩ := c
    simp only [Table.rising, Bool.and_eq_true] at h
    simp only [Table.drop]
    split
    · exact ih h.2
    · simp only [Table.rising, Bool.and_eq_true]; exact ⟨Table.all_drop _ _ _ h.1, ih h.2⟩

theorem Table.rising_filter (p : Nat × α → Bool) (l : List (Nat × α)) (h : Table.rising l = true) :
    Table.rising (l.filter p) = true := by
  induction l with
  | nil => rfl
  | cons c rest ih =>
    obtain ⟨k, w⟩ := c
    simp only [Table.rising, Bool.and_eq_true] at h
    rw [List.filter_cons]
    split
    · simp only [Table.rising, Bool.and_eq_true]
      refine ⟨?_, ih h.2⟩
      rw [List.all_eq_true] at h ⊢
      exact fun c hc => h.1 c (List.mem_filter.mp hc).1
    · exact ih h.2

/-- A write keeps the canonical form. -/
theorem Table.wf_set [DecidableEq α] (t : Table α) (d : Nat → α) (i : Nat) (v : α) (h : t.wf d = true) :
    (t.set d i v).wf d = true := by
  unfold Table.wf at h ⊢
  rw [Bool.and_eq_true] at h ⊢
  unfold Table.set
  split
  · exact ⟨Table.rising_drop _ _ h.1, Table.all_drop _ _ _ h.2⟩
  · next hv => exact ⟨Table.rising_put _ _ _ h.1, Table.all_put _ _ _ _ h.2 (by simpa using hv)⟩

/-- A run of writes keeps the canonical form. -/
theorem Table.wf_setRun [DecidableEq α] (d : Nat → α) (vs : List α) :
    ∀ (t : Table α) (i : Nat), t.wf d = true → (t.setRun d i vs).wf d = true := by
  induction vs with
  | nil => intro t i h; exact h
  | cons v rest ih => intro t i h; exact ih _ _ (Table.wf_set _ _ _ _ h)

/-- A list of writes keeps the canonical form. -/
theorem Table.wf_setAll [DecidableEq α] (d : Nat → α) (cs : List (Nat × α)) :
    ∀ t : Table α, t.wf d = true → (t.setAll d cs).wf d = true := by
  induction cs with
  | nil => intro t h; exact h
  | cons c rest ih => intro t h; exact ih _ (Table.wf_set _ _ _ _ h)

/-- Removing cells keeps the canonical form. -/
theorem Table.wf_filter [DecidableEq α] (d : Nat → α) (p : Nat × α → Bool) (t : Table α) (h : t.wf d = true) :
    (Table.mk (t.cells.filter p)).wf d = true := by
  unfold Table.wf at h ⊢
  rw [Bool.and_eq_true] at h ⊢
  refine ⟨Table.rising_filter _ _ h.1, ?_⟩
  rw [List.all_eq_true] at h ⊢
  exact fun c hc => h.2 c (List.mem_filter.mp hc).1

/-- Mapping the values keeps the places rising. -/
theorem Table.rising_map (f : α → α) (l : List (Nat × α)) (h : Table.rising l = true) :
    Table.rising (l.map (fun c => (c.1, f c.2))) = true := by
  induction l with
  | nil => rfl
  | cons c rest ih =>
    obtain ⟨k, w⟩ := c
    simp only [Table.rising, Bool.and_eq_true] at h
    simp only [List.map_cons, Table.rising, Bool.and_eq_true]
    refine ⟨?_, ih h.2⟩
    rw [List.all_eq_true] at h ⊢
    intro c hc
    obtain ⟨a, ha, rfl⟩ := List.mem_map.mp hc
    exact h.1 a ha

/-- Decay keeps the canonical form of a plane (05 R92). -/
theorem Table.wf_mapNat (t : Table Nat) (f : Nat → Nat) (h : t.wf Machine.cellDefault = true) :
    (t.mapNat f).wf Machine.cellDefault = true := by
  unfold Table.wf at h ⊢
  rw [Bool.and_eq_true] at h ⊢
  refine ⟨Table.rising_filter _ _ (Table.rising_map _ _ h.1), ?_⟩
  rw [List.all_eq_true]
  intro c hc
  exact (List.mem_filter.mp hc).2

/-! ## The memories and the planes -/

namespace Machine

/-- The words of a write grant keep the canonical form of the sample memory (04 R74). -/
theorem writeEntries_wf (m : Table SampleWord) (es : List FifoEntry) (h : m.wf memDefault = true) :
    (writeEntries m es).wf memDefault = true := Table.wf_setAll _ _ _ h

/-- Erasing a sector keeps the canonical form of the flash (09 R164). -/
theorem eraseSector_wf (f : Table Byte) (n : Nat) (h : f.wf erasedByte = true) :
    (eraseSector f n).wf erasedByte = true := Table.wf_filter _ _ _ h

/-- Programming a sector keeps the canonical form of the flash. -/
theorem programSector_wf (f : Table Byte) (n : Nat) (bs : List Byte) (h : f.wf erasedByte = true) :
    (programSector f n bs).wf erasedByte = true := Table.wf_setRun _ _ _ _ h

/-- What the outside world makes of the flash keeps its canonical form. -/
theorem upsetFlash_wf (s : State) (u : Upset) (h : s.flash.wf erasedByte = true) :
    (s.upsetFlash u).flash.wf erasedByte = true := Table.wf_setAll _ _ _ h

/-- A column's increment keeps the canonical form of a plane (05 R90). -/
theorem lightColumn_wf (t : Table Nat) (x w : Nat) (rows : List Nat) (h : t.wf cellDefault = true) :
    (lightColumn t x w rows).wf cellDefault = true := Table.wf_setAll _ _ _ h

/-- Placing a field's value keeps the canonical form of a setup. -/
theorem setup_put_wf (w : Setup) (id : Nat) (v : Int) (h : Table.wf w defaultValue = true) :
    Table.wf (w.put id v) defaultValue = true := Table.wf_set _ _ _ _ h

/-- A placed value is read back, and the other fields keep theirs. -/
theorem setup_val_put (w : Setup) (id j : Nat) (v : Int) : (w.put id v).val j = if j = id then v else w.val j :=
  Table.get_set _ _ _ _ _

/-- An erased sector reads 0xFF (09 R164). -/
theorem find_eraseSector (f : Table Byte) (n a : Nat) (h : a / 1024 = n) :
    (eraseSector f n).get erasedByte a = 0xFF := by
  unfold eraseSector Table.get
  have : ∀ l : List (Nat × Byte), Table.find (l.filter (fun c => decide (c.1 / 1024 ≠ n))) a = none := by
    intro l
    induction l with
    | nil => rfl
    | cons c rest ih =>
      obtain ⟨k, w⟩ := c
      rw [List.filter_cons]
      split
      · next hk =>
        have hk' : k / 1024 ≠ n := by simpa using hk
        have hne : k ≠ a := fun e => hk' (by rw [e]; exact h)
        simp only [Table.find, if_neg hne]
        exact ih
      · exact ih
  rw [this]
  rfl

/-- The memories after power-on reset are in canonical form. -/
theorem reset_mem_wf : State.reset.mem.wf memDefault = true := rfl

theorem reset_flash_wf : State.reset.flash.wf erasedByte = true := rfl

end Machine

end Sys2Proof
end

