-- ==== Sys2Proof/Laws/Acquire.lean ====
section
/-!
SUPPORT. What the shared operations of acquisition can do, said once: entering READY and ARMING, arming a record set, stopping,
discarding the picture, rebuilding the pool and ending a stream, each with the blocks it touches.
-/

namespace Sys2Proof.Machine

/-! ## Frames -/

/-- A frame, from one equality for each block outside the list. -/
theorem onlyTouches_of (l : List Block) (s t : State) (hp : t.pending = s.pending)
    (h : ∀ b ∈ [Block.sp, .trg, .acq, .pool, .smc, .mem, .ras, .planes, .comp, .panel, .setup, .store, .flash, .link, .readout],
      b ∉ l → b.same s t) :
    onlyTouches l s t :=
  ⟨hp, fun b hb => h b (by cases b <;> simp) hb⟩

/-- Frames compose. -/
theorem onlyTouches_trans {l m : List Block} {s u t : State} (h1 : onlyTouches l s u) (h2 : onlyTouches m u t)
    (k : List Block) (hl : ∀ b ∈ l, b ∈ k) (hm : ∀ b ∈ m, b ∈ k) : onlyTouches k s t := by
  refine ⟨h2.1.trans h1.1, fun b hb => ?_⟩
  have a1 := h1.2 b (fun h => hb (hl b h))
  have a2 := h2.2 b (fun h => hb (hm b h))
  cases b <;> exact a2.trans a1

/-- A frame holds of a longer list of blocks. -/
theorem onlyTouches_mono {l : List Block} {s t : State} (h : onlyTouches l s t) (k : List Block)
    (hl : ∀ b ∈ l, b ∈ k) : onlyTouches k s t :=
  ⟨h.1, fun b hb => h.2 b (fun x => hb (hl b x))⟩

/-! ## Arming (03 R45, R47, R48, R58) -/

/-- Entry to READY (02 R31, R38). -/
theorem enterReady_spec (s : State) :
    s.enterReady = (s.withAcq { s.acq with state := .ready }).withTrg (readyEntered s.w s s.trg) := by
  unfold State.enterReady readyEntered
  cases h : s.trg.holdoff <;>
    simp [h, State.enableSequencer, State.w, State.lastTick, compsInit, Measure.fresh, State.withTrg, State.withAcq]

/-- Entry of a segment to ARMING, and to READY at once where the pretrigger is 0 (03 R47, R48). -/
theorem enterArming_spec (seg pre : Nat) (s : State) :
    segmentBegun pre s (s.enterArming seg pre) ∧ onlyTouches [.sp, .trg, .acq] s (s.enterArming seg pre) ∧
    (s.enterArming seg pre).acq = { s.acq with
      state := if pre = 0 then .ready else .arming, segIdx := seg, fill := 0, ordinal := 0, seg := some ⟨false, none⟩ } := by
  unfold State.enterArming
  by_cases h : pre = 0
  · simp only [h, if_true, enterReady_spec]
    refine ⟨⟨rfl, rfl⟩, ?_, rfl⟩
    apply onlyTouches_of <;> simp [Block.same]
  · simp only [h, if_false]
    refine ⟨⟨rfl, by simp [h]⟩, ?_, rfl⟩
    apply onlyTouches_of <;> simp [Block.same]

/-- The ending of a stream in progress (11 R209, R210). -/
theorem endStream_spec (status : DataStatus) (s : State) (st : Stream) (h : s.readout.stream = some st) :
    streamEnded status st s (s.endStream status) ∧ onlyTouches [.smc, .readout] s (s.endStream status) ∧
    (s.endStream status).smc.fifo = s.smc.fifo ∧
    ((∀ (e : Tick) (x : Burst) (k : Bool), s.smc.grant ≠ some ⟨e, .readout x k⟩) →
      (s.endStream status).smc.grant = s.smc.grant) := by
  unfold State.endStream streamEnded
  simp only [h]
  refine ⟨⟨by simp, ?_⟩, ?_, by simp, ?_⟩
  · intro e b k hg; simp [hg]
  · apply onlyTouches_of <;> simp [Block.same]
  · intro hg; simp

/-- All that arming a record set can do: the buffer chosen is armed, or with none the state is WAIT_BUFFER (03 R45, R58). -/
theorem arm_spec (s : State) :
    startedSet s s.arm ∧ s.arm.acq.run = s.acq.run ∧ onlyTouches [.sp, .trg, .acq, .pool, .smc, .readout] s s.arm := by
  unfold State.arm startedSet
  cases hc : s.pool.choose with
  | none =>
    simp [setDiscarded]
    apply onlyTouches_of <;> simp [Block.same]
  | some b =>
    simp only [Option.some.injEq, forall_eq', reduceCtorEq, false_implies, and_true]
    set c := s.claim b with hcd
    have hcl : onlyTouches [.acq, .pool, .smc, .readout] s c ∧
        c.pool = { s.pool.setBuf b ⟨.filling, false, false, none⟩ with completion := s.pool.completion.erase b } ∧
        c.acq = { s.acq with skip := if (s.pool.buf b).state = .new then min (s.acq.skip + 1) 255 else s.acq.skip } ∧
        streamAfterSelection b s c := by
      rw [hcd]; unfold State.claim
      by_cases hs : (decide ((s.pool.buf b).state ≠ .free) && s.streams b) = true
      · simp only [hs, if_true]
        cases hst : s.readout.stream with
        | none => simp [State.streams, hst] at hs
        | some st =>
          have hb : st.buf = b := by simp [State.streams, hst] at hs; exact hs.2
          have hnf : (s.pool.buf b).state ≠ .free := by simp at hs; exact hs.1
          obtain ⟨h1, h2, h3, h4⟩ := endStream_spec .gone s st hst
          have hp : (s.endStream .gone).pool = s.pool := h2.2 .pool (by simp)
          have ha : (s.endStream .gone).acq = s.acq := h2.2 .acq (by simp)
          refine ⟨⟨h2.1, ?_⟩, by simp [hp], by simp [ha, sat255], h3, ?_, h4, ?_⟩
          · intro x hx
            have := h2.2 x
            cases x <;> simp_all [Block.same]
          · intro st' hst'  _ _
            rw [hst] at hst'; cases hst'; exact h1
          · intro hh; exact absurd (hh st hst hb) hnf
      · have hs' : (decide ((s.pool.buf b).state ≠ .free) && s.streams b) = false := by simpa using hs
        simp only [hs']
        refine ⟨?_, by simp, by simp [sat255], by simp, ?_, by simp, by simp⟩
        · apply onlyTouches_of <;> simp [Block.same]
        · intro st hst hb hnf
          simp [State.streams, hst, hb, hnf] at hs'
    obtain ⟨hct, hcp, hca, hcs⟩ := hcl
    have hw : c.w = s.w := by have : c.setup = s.setup := hct.2 .setup (by simp); simp [State.w, this]
    have hw0 := hw
    have hsp : c.sp = s.sp := hct.2 .sp (by simp)
    have htr : c.trg = s.trg := hct.2 .trg (by simp)
    set d := c.withAcq { c.acq with cur := some b, captured := some s.w.capture, table := [], setId := c.acq.setId + 1 } with hd
    simp only [hw, ← hd]
    obtain ⟨e1, e2, e3⟩ := enterArming_spec 0 s.w.pre d
    have dw : d.w = s.w := Eq.trans rfl hw0
    refine ⟨⟨?_, ?_, ?_, ?_⟩, ?_, ?_⟩
    · rw [show (d.enterArming 0 s.w.pre).pool = d.pool from e2.2 .pool (by simp)]; simpa [hd] using hcp
    · rw [e3]; simp [hd, hca]
    · obtain ⟨f1, f2⟩ := e1
      refine ⟨by rw [f1, dw]; simp [hd, hsp], ?_⟩
      rw [f2, dw]; simp [hd, htr, hsp, readyEntered, State.lastTick]
    · obtain ⟨g1, g2, g3, g4⟩ := hcs
      have hm : (d.enterArming 0 s.w.pre).smc = c.smc :=
        (show (d.enterArming 0 s.w.pre).smc = d.smc from e2.2 .smc (by simp)).trans (by simp [hd])
      have hr : (d.enterArming 0 s.w.pre).readout = c.readout :=
        (show (d.enterArming 0 s.w.pre).readout = d.readout from e2.2 .readout (by simp)).trans (by simp [hd])
      refine ⟨by rw [hm]; exact g1, ?_, by rw [hm]; exact g3, by rw [hm, hr]; exact g4⟩
      intro st h1 h2 h3
      have := g2 st h1 h2 h3
      unfold streamEnded at *
      rw [hm, hr]; exact this
    · rw [e3]; simp [hd, hca]
    · refine ⟨by rw [e2.1]; simp [hd]; exact hct.1, fun x hx => ?_⟩
      have q1 := e2.2 x
      have q2 := hct.2 x
      cases x <;> simp_all [Block.same]

/-- A buffer that selection takes is FREE, or listed and SHOWN or NEW (03 R58). -/
theorem choose_spec (p : Pool) (n : Nat) (h : p.choose = some n) :
    ((p.buf n).state = .free ∧ n < p.count) ∨
      (n ∈ p.completion ∧ ((p.buf n).state = .shown ∨ (p.buf n).state = .new)) := by
  unfold Pool.choose at h
  split at h
  · next b hb =>
    cases h
    have h1 := List.find?_some hb
    have h2 := List.mem_of_find?_eq_some hb
    left; exact ⟨by simpa using h1, by simpa using h2⟩
  · split at h
    · next b hb =>
      cases h
      have h1 := List.find?_some hb
      have h2 := List.mem_of_find?_eq_some hb
      right; exact ⟨h2, by simp at h1; exact .inl h1.1⟩
    · have h1 := List.find?_some h
      have h2 := List.mem_of_find?_eq_some h
      right; exact ⟨h2, by simp at h1; exact .inr h1.1⟩

/-! ## Completing and stopping (03 R44, R65, 05 R80) -/

/-- All that STOP does in RUN or SINGLE (03 R44, 02 R38). -/
theorem stopAcquisition_spec (s : State) :
    acquisitionStopped s s.stopAcquisition ∧ onlyTouches [.sp, .trg, .acq, .pool] s s.stopAcquisition := by
  unfold State.stopAcquisition State.abandonFilling acquisitionStopped
  cases h : s.acq.cur with
  | none =>
    refine ⟨⟨rfl, rfl, rfl, rfl, rfl, fun b => by simp [State.setStopped, State.stopSequencer]⟩, ?_⟩
    apply onlyTouches_of <;> simp [Block.same, State.setStopped, State.stopSequencer]
  | some b =>
    refine ⟨⟨rfl, rfl, rfl, rfl, rfl, fun j => ?_⟩, ?_⟩
    · simp [State.setStopped, State.stopSequencer, Pool.buf, Pool.setBuf, Table.get_set, bufDefault, eq_comm]
    · apply onlyTouches_of <;> simp [Block.same, State.setStopped, State.stopSequencer]

/-- A merge that applies to no report changes none. -/
theorem mergeReports_none (f) : ∀ rs, (∀ r ∈ rs, f r.body = none) → mergeReports f rs = none := by
  intro rs; induction rs with
  | nil => intro _; rfl
  | cons r rest ih => intro h; simp [mergeReports, h r (by simp), ih (fun x hx => h x (by simp [hx]))]

/-- A merge changes the first report it applies to, in its place (10 R194). -/
theorem mergeReports_split (f) (newer r b) (hr : f r.body = some b) : ∀ older, (∀ r ∈ older, f r.body = none) →
   mergeReports f (older ++ r :: newer) = some (older ++ { r with body := b } :: newer) := by
  intro rs; induction rs with
  | nil => intro _; simp [mergeReports, hr]
  | cons r rest ih => intro h; simp [mergeReports, h r (by simp), ih (fun x hx => h x (by simp [hx]))]

/-- The ACQ report of a completion touches the queue and the skip accumulator alone (03 R65). -/
theorem offerAcq_touch (b q g c) (s : State) : onlyTouches [.acq, .link] s (s.offerAcq b q g c) := by
  unfold State.offerAcq
  split
  · apply onlyTouches_of <;> simp [Block.same]
  · split <;> (apply onlyTouches_of <;> simp [Block.same])

/-- Of the Acquisition Controller, the ACQ report touches the skip accumulator alone. -/
theorem offerAcq_acq (b q g c) (s : State) : (s.offerAcq b q g c).acq = { s.acq with skip := (s.offerAcq b q g c).acq.skip } := by
  unfold State.offerAcq
  split
  · simp
  · split <;> rfl

/-- The IDLE Rasterizer's taking of a buffer touches the pool, the Rasterizer and the planes alone (05 R80, R91). -/
theorem takeBuffer_touch (s : State) : onlyTouches [.pool, .ras, .planes] s s.takeBuffer := by
  unfold State.takeBuffer
  split
  · split
    · apply onlyTouches_of <;> simp [Block.same]
    · split
      · unfold State.preDrawClear; dsimp only; split <;> (apply onlyTouches_of <;> simp [Block.same])
      · apply onlyTouches_of <;> simp [Block.same]
  · apply onlyTouches_of <;> simp [Block.same]

/-! ## The parts of an ACQ-class announcement (03 R60 to R64, 05 R96) -/

/-- A table after one write for each place of a list. -/
theorem table_get_setAll_map {α} [DecidableEq α] (d : Nat → α) (g : Nat → α) (j : Nat) : ∀ (l : List Nat) (t : Table α),
    (t.setAll d (l.map (fun b => (b, g b)))).get d j = if j ∈ l then g j else t.get d j := by
  intro l
  induction l with
  | nil => intro t; simp [Table.setAll]
  | cons x xs ih =>
    intro t
    simp only [List.map_cons, Table.setAll, ih, Table.get_set, List.mem_cons]
    by_cases h1 : j ∈ xs
    · simp [h1]
    · by_cases h2 : j = x <;> simp [h1, h2]

/-- The segment in progress abandoned (03 R44, R60 step 1). -/
theorem abandonFilling_spec (s : State) :
    s.abandonFilling.acq = setDiscarded s.acq ∧ s.abandonFilling.sp = groupingClosed s.sp ∧
    s.abandonFilling.pool.count = s.pool.count ∧ s.abandonFilling.pool.completion = s.pool.completion ∧
    (∀ b, s.abandonFilling.pool.buf b = if s.acq.cur = some b then ⟨.free, false, false, none⟩ else s.pool.buf b) ∧
    onlyTouches [.sp, .acq, .pool] s s.abandonFilling := by
  unfold State.abandonFilling
  cases h : s.acq.cur with
  | none =>
    refine ⟨rfl, rfl, rfl, rfl, by simp, ?_⟩
    apply onlyTouches_of <;> simp [Block.same]
  | some b =>
    refine ⟨rfl, rfl, rfl, rfl, fun j => ?_, ?_⟩
    · simp [Pool.buf, Pool.setBuf, Table.get_set, bufDefault, eq_comm]
    · apply onlyTouches_of <;> simp [Block.same]

/-- The picture discarded: drawing abandoned, NEW buffers stale, all planes 0 (03 R60 steps 2 to 4, R63). -/
theorem discardPicture_spec (s : State) :
    let t := s.discardPicture
    t.ras.drawing = none ∧ (∀ c x r, t.cell c x r = 0) ∧ t.pool.count = s.pool.count ∧
    t.pool.completion = s.pool.completion ∧
    (∀ b, t.pool.buf b =
      let y := if b < s.pool.count then (s.pool.buf b).markStale else s.pool.buf b
      if s.ras.drawing.map (fun d => d.buf) = some b then { y with state := .shown } else y) ∧
    t.smc.fifo = s.smc.fifo ∧
    drawGrantAfterAcq s t ∧
    (∀ (e : Tick) (b : Burst) (k : Bool), s.smc.grant = some ⟨e, .readout b k⟩ → t.smc.grant = s.smc.grant) ∧
    onlyTouches [.pool, .ras, .smc, .planes] s t := by
  unfold State.discardPicture State.abandonDrawing
  have hm : ∀ b, (s.markStale.pool.buf b) = if b < s.pool.count then (s.pool.buf b).markStale else s.pool.buf b := by
    intro b
    simp [State.markStale, Pool.buf, table_get_setAll_map]
  cases h : s.ras.drawing with
  | none =>
    have h' : s.markStale.ras.drawing = none := h
    simp only [h']
    refine ⟨h', ?_, rfl, rfl, ?_, rfl, ?_, ?_, ?_⟩
    · intro c x r; cases c <;> simp [State.cell, clearPlanes, PerCh.of, PerCh.get, Ch.all, cellDefault]
    · intro b; simp only [State.withPlanes_pool, hm]; simp
    · refine ⟨fun hg => hg, fun e b k _ => rfl, fun e b k hg => ?_⟩
      simp [h]; exact hg
    · intro e b k hg; rfl
    · apply onlyTouches_of <;> simp [Block.same, State.markStale]
  | some d =>
    have h' : s.markStale.ras.drawing = some d := h
    simp only [h']
    refine ⟨rfl, ?_, rfl, rfl, ?_, rfl, ?_, ?_, ?_⟩
    · intro c x r; cases c <;> simp [State.cell, clearPlanes, PerCh.of, PerCh.get, Ch.all, cellDefault]
    · intro b
      simp only [State.withPlanes_pool, State.endDrawing, Pool.toShown, State.withRas_pool, State.withPool_pool,
        State.withSmc_pool]
      have : ∀ (p : Pool) (i : Nat) (v : Buffer) (j : Nat), (p.setBuf i v).buf j = if j = i then v else p.buf j := by
        intro p i v j; simp [Pool.buf, Pool.setBuf, Table.get_set]
      rw [this]
      by_cases hb : b = d.buf
      · subst hb; simp [hm]
      · rw [if_neg hb, hm]; simp; intro hh; exact absurd hh.symm hb
    · have hs : s.markStale.smc = s.smc := rfl
      refine ⟨fun hg => by simp [State.endDrawing, hs, hg], fun e b k hg => by simp [State.endDrawing, hs, hg],
        fun e b k hg => ?_⟩
      simp [State.endDrawing, hs, hg, h]
    · have hs : s.markStale.smc = s.smc := rfl
      intro e b k hg; simp [State.endDrawing, hs, hg]
    · apply onlyTouches_of <;> simp [Block.same, State.endDrawing, State.markStale]

/-- The rebuild of the pool, where ACQ.BUFFERS has changed (03 R64). -/
theorem rebuildIf_spec (c : Bool) (s : State) :
    let t := s.rebuildIf c
    onlyTouches [.pool, .smc, .readout] s t ∧ t.smc.fifo = s.smc.fifo ∧
    (c = false → t = s) ∧
    (c = true → t.pool.count = s.w.buffers ∧ t.pool.completion = [] ∧
      (∀ b, t.pool.buf b = ⟨.free, false, false, none⟩) ∧
      (s.readout.stream = none → t.smc = s.smc ∧ t.readout = s.readout) ∧
      (∀ st, s.readout.stream = some st → streamEnded .gone st s t)) ∧
    ((∀ (e : Tick) (x : Burst) (k : Bool), s.smc.grant ≠ some ⟨e, .readout x k⟩) → t.smc.grant = s.smc.grant) := by
  intro t
  cases c with
  | false =>
    exact ⟨by apply onlyTouches_of <;> simp [Block.same, t, State.rebuildIf], rfl, fun _ => rfl, by simp, fun _ => rfl⟩
  | true =>
    cases h : s.readout.stream with
    | none =>
      have he : s.endStream .gone = s := by unfold State.endStream; rw [h]
      have ht : t = s.withPool ⟨s.w.buffers, Table.empty, []⟩ := by simp [t, State.rebuildIf, State.rebuildPool, he]
      rw [ht]
      refine ⟨by apply onlyTouches_of <;> simp [Block.same], rfl, by simp,
        fun _ => ⟨rfl, rfl, fun b => rfl, fun _ => ⟨rfl, rfl⟩, by simp⟩, fun _ => rfl⟩
    | some st =>
      obtain ⟨h1, h2, h3, h4⟩ := endStream_spec .gone s st h
      have ht : t = (s.endStream .gone).withPool ⟨s.w.buffers, Table.empty, []⟩ := by
        simp [t, State.rebuildIf, State.rebuildPool]
      rw [ht]
      refine ⟨⟨h2.1, fun x hx => ?_⟩, h3, by simp, fun _ => ⟨rfl, rfl, fun b => rfl, by simp, ?_⟩, h4⟩
      · have := h2.2 x
        cases x <;> first | (exact absurd hx (by decide)) | exact this (by decide)
      · intro st' hst; cases hst; exact h1

/-- Where an ACQ-class announcement can act; in STOPPED it leaves the acquisition and the queues. -/
theorem announceAcq_frame (b : Bool) (u : State) :
    onlyTouches [.sp, .trg, .acq, .pool, .smc, .ras, .planes, .link, .readout] u (u.announceAcq b) ∧
    (u.acq.state = .stopped → onlyTouches [.pool, .smc, .ras, .planes, .readout] u (u.announceAcq b)) := by
  unfold State.announceAcq
  have hd := fun x : State => (discardPicture_spec x).2.2.2.2.2.2.2.2
  have hr := fun x : State => (rebuildIf_spec b x).1
  split
  · have := onlyTouches_trans (hd u) (hr _)
    exact ⟨this _ (by decide) (by decide), fun _ => this _ (by decide) (by decide)⟩
  · next h =>
    refine ⟨?_, fun hh => absurd hh h⟩
    have h1 := (abandonFilling_spec u).2.2.2.2.2
    have h2 := onlyTouches_trans h1 (hd u.abandonFilling) [.sp, .acq, .pool, .ras, .smc, .planes] (by decide) (by decide)
    have h3 : onlyTouches [.trg] u.abandonFilling.discardPicture u.abandonFilling.discardPicture.stopSequencer := by
      apply onlyTouches_of <;> simp [Block.same, State.stopSequencer]
    have h4 := onlyTouches_trans h2 h3 [.sp, .acq, .pool, .ras, .smc, .planes, .trg] (by decide) (by decide)
    have h5 := onlyTouches_trans h4 (hr _) [.sp, .acq, .pool, .ras, .smc, .planes, .trg, .readout] (by decide) (by decide)
    refine onlyTouches_trans (m := [.sp, .trg, .acq, .pool, .smc, .readout, .link]) h5 ?_ _ (by decide) (by decide)
    unfold State.rearm
    split
    · exact onlyTouches_mono (arm_spec _).2.2 _ (by decide)
    · apply onlyTouches_of <;> simp [Block.same, State.setStopped, State.reportRun]

/-- Where the announcements of a changed setup can act (08 R156). -/
theorem announce_frame (ids : List Nat) (u : State) :
    onlyTouches [.sp, .trg, .acq, .pool, .smc, .ras, .planes, .link, .readout] u (u.announce ids) ∧
    (u.acq.state = .stopped → onlyTouches [.trg, .pool, .smc, .ras, .planes, .readout] u (u.announce ids)) := by
  unfold State.announce
  have hdr : ∀ (cs : List Ch) (x : State), onlyTouches [.planes] x (x.announceDraw cs) := by
    intro cs x; unfold State.announceDraw; split
    · apply onlyTouches_of <;> simp [Block.same]
    · apply onlyTouches_of <;> simp [Block.same]
  split
  · obtain ⟨a, b⟩ := announceAcq_frame (decide (0x06 ∈ ids)) u
    exact ⟨onlyTouches_trans a (hdr _ _) _ (by decide) (by decide),
      fun h => onlyTouches_trans (b h) (hdr _ _) _ (by decide) (by decide)⟩
  · split
    · have : onlyTouches [.trg] u u.announceTrig := by
        unfold State.announceTrig; split
        · apply onlyTouches_of <;> simp [Block.same, State.enableSequencer]
        · apply onlyTouches_of <;> simp [Block.same]
      exact ⟨onlyTouches_trans this (hdr _ _) _ (by decide) (by decide),
        fun _ => onlyTouches_trans this (hdr _ _) _ (by decide) (by decide)⟩
    · exact ⟨onlyTouches_mono (hdr _ _) _ (by decide), fun _ => onlyTouches_mono (hdr _ _) _ (by decide)⟩

end Sys2Proof.Machine
end

