-- ==== Sys2Proof/Laws/Lane.lean ====
section
/-!
SUPPORT. The symbol code: every symbol's word is read as that symbol at its running disparity, and the words of a list of
symbols as that list.
-/

namespace Sys2Proof.Machine

theorem wordData_dataWord_below (n : Nat) (h : n < 256) :
    ∀ rd, wordData rd (dataWord rd (BitVec.ofNat 8 n)) = some (BitVec.ofNat 8 n) := by
  have key : ∀ m < 256, ∀ rd, wordData rd (dataWord rd (BitVec.ofNat 8 m)) = some (BitVec.ofNat 8 m) := by decide +kernel
  exact key n h

/-- A byte's word is read as that byte. -/
theorem wordData_dataWord (rd : Bool) (b : Byte) : wordData rd (dataWord rd b) = some b := by
  have h := wordData_dataWord_below b.toNat b.isLt rd
  rwa [BitVec.ofNat_toNat, BitVec.setWidth_eq] at h

/-- Whatever control codes are chosen, none is a byte's word, and the three differ. -/
theorem chosenCode_spec (i : Fin 3) (j : Fin 2) (k : Fin 10) (rd : Bool) :
    let w := fun x => if rd then ~~~(chosenCode i j k x) else chosenCode i j k x
    wordData rd (w .idle) = none ∧ wordData rd (w .sof) = none ∧ wordData rd (w .eof) = none ∧
      w .idle ≠ w .sof ∧ w .idle ≠ w .eof ∧ w .sof ≠ w .eof := by
  revert i j k rd
  decide +kernel

/-- Every symbol's word is read as that symbol (10 R183). -/
theorem wordSymbol_symbolWord (rd : Bool) (x : LaneSymbol) : wordSymbol rd (symbolWord rd x) = some x := by
  obtain ⟨h1, h2, h3, h4, h5, h6⟩ := chosenCode_spec Config.idleChoice Config.sofChoice Config.eofChoice rd
  cases x with
  | data b => simp [wordSymbol, symbolWord, wordData_dataWord]
  | idle => simp [wordSymbol, symbolWord, h1]
  | sof => simp [wordSymbol, symbolWord, h2, h4]
  | eof => simp [wordSymbol, symbolWord, h3, h5, h6]

/-- The two comma symbols' words are found by a receiver without alignment, with their disparity (10 R183). -/
theorem wordComma_symbolWord (rd : Bool) (x : LaneSymbol) (h : x = .idle ∨ x = .sof) :
    wordComma (symbolWord rd x) = some (x, rd) := by
  have key : ∀ (i : Fin 3) (j : Fin 2) (k : Fin 10),
      let c := chosenCode i j k
      c .idle ≠ ~~~c .idle ∧ c .sof ≠ ~~~c .sof ∧ c .idle ≠ c .sof ∧ c .idle ≠ ~~~c .sof ∧ ~~~c .idle ≠ c .sof ∧
        ~~~c .idle ≠ ~~~c .sof := by decide +kernel
  obtain ⟨h1, h2, h3, h4, h5, h6⟩ := key Config.idleChoice Config.sofChoice Config.eofChoice
  rcases h with rfl | rfl <;> cases rd <;> simp [wordComma, symbolWord, h1, h2, h3, h4, h5, h6]

@[simp] theorem symbolWords_nil (rd : Bool) : symbolWords rd [] = [] := rfl

@[simp] theorem symbolWords_cons (rd : Bool) (x : LaneSymbol) (xs : List LaneSymbol) :
    symbolWords rd (x :: xs) = symbolWord rd x :: symbolWords (disparityAfter rd (symbolWord rd x)) xs := rfl

@[simp] theorem disparityOver_nil (rd : Bool) : disparityOver rd [] = rd := rfl

@[simp] theorem disparityOver_cons (rd : Bool) (x : LaneSymbol) (xs : List LaneSymbol) :
    disparityOver rd (x :: xs) = disparityOver (disparityAfter rd (symbolWord rd x)) xs := rfl

/-- Two IDLE symbols leave the running disparity as it was, whichever code IDLE has. -/
theorem disparityOver_two_idles (rd : Bool) (xs : List LaneSymbol) :
    disparityOver rd (.idle :: .idle :: xs) = disparityOver rd xs := by
  have key : ∀ (i : Fin 3) (j : Fin 2) (k : Fin 10) (r : Bool),
      let w := fun q : Bool => if q then ~~~(chosenCode i j k .idle) else chosenCode i j k .idle
      disparityAfter (disparityAfter r (w r)) (w (disparityAfter r (w r))) = r := by decide +kernel
  simpa [symbolWord] using
    congrArg (disparityOver · xs) (key Config.idleChoice Config.sofChoice Config.eofChoice rd)

/-- The running disparity of an idle lane is that after all the IDLE symbols it has sent (10 R183). -/
theorem idleDisparity_eq (rd : Bool) : ∀ n, idleDisparity rd n = disparityOver rd (List.replicate n .idle)
  | 0 => rfl
  | 1 => rfl
  | n + 2 => by
    have h := idleDisparity_eq rd n
    rw [List.replicate_succ, List.replicate_succ, disparityOver_two_idles, ← h]
    simp [idleDisparity]

end Sys2Proof.Machine
end

