-- ==== Sys2Proof/Laws/Panel.lean ====
section
/-!
SUPPORT. What the shared operations of the panel's event handling can do, said once, each as the replacement of the panel or the
link that it is.
-/

namespace Sys2Proof.Machine

/-- The idle timer restarted with DSP.IDLE (07 R139). -/
theorem restartIdle_eq (s : State) : s.restartIdle = s.withPanel { s.panel with
    idle := if s.w.idleMinutes = 0 then none else some (s.lastTick + BitVec.ofNat 48 (s.w.idleMinutes * 60000000000)) } := rfl

/-- What a change of DSP.IDLE does at once (07 R139). -/
theorem changeIdle_eq (old : Setup) (s : State) : s.changeIdle old = s.withPanel { s.panel with
    idle := (if old.idleMinutes = s.w.idleMinutes then s.panel.idle
      else if s.w.idleMinutes = 0 then none
      else if s.comp.dim = true then s.panel.idle
      else some (s.lastTick + BitVec.ofNat 48 (s.w.idleMinutes * 60000000000))) } := by
  unfold State.changeIdle State.restartIdle
  split
  · rfl
  · split
    · split <;> simp_all [State.withPanel]
    · simp_all [State.withPanel, State.after, ticks]

/-- The click of a PRESS (07 R143). -/
theorem clickFor_eq (a : ActionEntry) (s : State) : s.clickFor a = s.withPanel { s.panel with
    click := if a.mode ≠ .off ∧ a.click = true ∧ s.w.click = true ∧ s.panel.alarmEnd = none then
        some (s.lastTick + 2000000#48)
      else s.panel.click } := by
  unfold State.clickFor
  split <;> rfl

/-- The repeat key of a PRESS (07 R124). -/
theorem repeatFor_eq (k : Nat) (a : ActionEntry) (s : State) : s.repeatFor k a = s.withPanel { s.panel with
    repeatKey := if a.mode ≠ .off ∧ a.rep = true then some (k, s.lastTick + 400000000#48) else s.panel.repeatKey } := by
  unfold State.repeatFor
  split <;> rfl

/-- The end of a RELEASE's own repeat (07 R125). -/
theorem endRepeat_eq (k : Nat) (s : State) : s.endRepeat k = s.withPanel { s.panel with
    repeatKey := if s.panel.repeatKey.map (fun x => x.1) = some k then none else s.panel.repeatKey } := by
  unfold State.endRepeat
  cases h : s.panel.repeatKey with
  | none => simp only [Option.map_none, reduceCtorEq, if_false]; rw [← h]; rfl
  | some x =>
    obtain ⟨j, e⟩ := x
    simp only [Option.map_some, Option.some.injEq]
    split
    · rfl
    · rw [← h]; rfl

/-- An event calls for no local action exactly where the one called for is NONE (07 R131, R135). -/
theorem callsAction_false_iff (e : PanelEvent) (a : ActionEntry) :
    callsAction e a = false ↔ calledAction e.kind a = .none := by
  have tv : ∀ f : Option Nat, (f.bind catalogue).map (fun f => f.kind) = some (.enumerated 2) ↔
      (f.map twoValued).getD false = true := by
    intro f
    cases f with
    | none => simp
    | some id => unfold twoValued; cases h : catalogue id <;> simp [h]
  unfold callsAction calledAction
  simp only [decide_eq_false_iff_not, tv]
  cases e.kind <;> cases a.action <;> simp

/-- An event with no local action to take queues at most its one report (07 R131, R132). -/
theorem actOn_none (e : PanelEvent) (a : ActionEntry)
    (h : a.mode = .off ∨ a.mode = .report ∨ callsAction e a = false) (v : State) :
    v.actOn e a = v.withLink
      (if a.mode = .report ∨ a.mode = .both then v.link.enter (.panel e a.action .none .ok) else v.link) := by
  unfold State.actOn
  cases hm : a.mode
  case off => simp; rfl
  case report => simp [State.concludeEvent]; rfl
  all_goals
    have hn : calledAction e.kind a = .none := (callsAction_false_iff e a).mp (by rw [hm] at h; simpa using h)
    simp [State.offerLocal, hn, State.concludeEvent, hm]
    rfl

end Sys2Proof.Machine
end

