-- ==== Sys2Proof/Tests/Slice0.lean ====
section
/-!
SUPPORT. Tests: an ill-formed term for each check of WellFormed, the worked examples of spec/ (each names its place), and
for each obligation with hypotheses the states and operands that meet them.
-/

namespace Sys2Proof.Tests

open Sys2Proof.Machine

-- The theorems of this file are elaborated one after another: side by side they take more threads than memory allows.
set_option Elab.async false

/-! ## Ill-formed operands (log 21) -/

theorem test_wf_upset : (Instr.flashEraseEnd [(17408, 0)]).wf = false := by decide
theorem test_wf_upset_power : (Instr.powerOnReset [(17408, 0)]).wf = false := by decide
theorem test_wf_upset_program : (Instr.flashProgramEnd [(17408, 0)]).wf = false := by decide
theorem test_wf_upset_verify : (Instr.flashVerifyEnd [(17408, 0)]).wf = false := by decide
theorem test_wf_upset_limit : (Instr.limitTimerExpiry [(17408, 0)]).wf = false := by decide
theorem test_wf_upset_read : (Instr.recallReadEnd [(17408, 0)]).wf = false := by decide
theorem test_wf_upset_start : (Instr.powerOnRecallEnd [(17408, 0)]).wf = false := by decide
theorem test_wf_press : (Instr.press 96).wf = false := by decide
theorem test_wf_release : (Instr.release 96).wf = false := by decide
theorem test_wf_repeat : (Instr.repeatKey 96).wf = false := by decide
theorem test_wf_turn_encoder : (Instr.turn 8 1).wf = false := by decide
theorem test_wf_turn_zero : (Instr.turn 0 0).wf = false := by decide
theorem test_wf_turn_far : (Instr.turn 0 128).wf = false ∧ (Instr.turn 0 (-128)).wf = false := by decide
theorem test_wf_clut : (Instr.loadClut 0 1 []).wf = false := by decide
theorem test_wf_palette : (Instr.loadPalette 0 []).wf = false := by decide
theorem test_wf_glyph : (Instr.loadGlyph 0 0x80 []).wf = false := by decide
theorem test_wf_setup : (Instr.loadSetup 0 []).wf = false := by decide
theorem test_wf_save : (Instr.save 0 1 []).wf = false := by decide
theorem test_wf_text : (Instr.text 0 0 0 (List.replicate 2047 0)).wf = false := by decide +kernel
theorem test_wf_unknown_type_known : (Instr.unknownType ⟨0x01, 0, []⟩).wf = false := by decide
theorem test_wf_unknown_type_long : (Instr.unknownType ⟨0x77, 0, List.replicate 2049 0⟩).wf = false := by
  decide +kernel
theorem test_wf_badlen_unknown : (Instr.badlen ⟨0x77, 0, []⟩).wf = false := by decide
theorem test_wf_badlen_permitted : (Instr.badlen ⟨0x01, 0, []⟩).wf = false := by decide
theorem test_wf_badlen_long : (Instr.badlen ⟨0x01, 0, List.replicate 2049 0⟩).wf = false := by decide +kernel
theorem test_ill_formed_refused : exec (.press 96) State.reset = .refused .illFormed := rfl

/-! ## Worked examples: Sample Path (01, sections 1.8 and 1.9) -/

/-- The loaded entry of section 1.8. -/
def entry18 : CorrEntry := ⟨512, 4506, true⟩

theorem test_correct_worked : [700, 100, 600, 0, 1023].map (correct entry18) =
    [(207, false), (-453, false), (97, false), (-512, true), (511, true)] := by decide

theorem test_correct_limits : (correctedRaw ⟨512, 8191, true⟩ 0, correct ⟨512, 8191, true⟩ 0) = (-1024, -512, true) ∧
    correct ⟨512, 2048, true⟩ 513 = (1, false) ∧ correct ⟨512, 2048, true⟩ 511 = (-1, false) := by decide

/-- The members of the worked group of section 1.9. -/
def group19 : List (Int × Bool) := [(207, false), (-453, false), (-512, true), (97, false), (511, true)]

/-- The words a group yields (12 R218 gives the bits of each word). -/
def wordsOf (mode : AcqMode) (ms : List (Int × Bool)) : Option (List SampleWord) :=
  (accOf ms).map (groupWords mode ms.length)

theorem test_group_sample : wordsOf .sample group19 = some [0x00CF] := by decide
theorem test_group_peak : wordsOf .peak group19 = some [0x8200, 0x81FF] := by decide
theorem test_group_hires : wordsOf .hires group19 = some [0x83E2] := by decide
theorem test_word_negative : sampleWord (-453) false = 0x023B := by decide
theorem test_hires_means : (meanCode 1037 5, meanCode (-7) 2) = (207, -4) := by decide

/-! ## Worked examples: acquisition, memory, planes -/

/-- 03 R45: N = 1400 with 25 % gives 350; N = 700 with 100 % gives 699. -/
theorem test_pretrigger : ((Setup.default.put 0x03 1400).put 0x04 25).pre = 350 ∧
    ((Setup.default.put 0x03 700).put 0x04 100).pre = 699 := by decide +kernel

/-- 04 R69: ring position 100 of CH2's segment 2 in buffer 2. -/
theorem test_ring_address : Pool.reset.ringBase 2 1 3 2 700 + 100 = 67112464 := by decide +kernel

/-- 05 section 5.7, Rows. -/
theorem test_plane_rows :
    [(207, -100), (0, 0), (-1, 0), (399, 0), (400, 0), (-400, 0), (-401, 0), (511, 400), (-512, -400)].map
      (fun p : Int × Int => (planeRow p.1 p.2, rowHeld p.1 p.2)) =
    [(146, false), (199, false), (200, false), (0, false), (0, true), (399, false), (399, true), (0, true),
      (399, true)] := by decide

/-- 05 section 5.7, A column in PEAK mode. -/
theorem test_peak_column :
    let rows := [-20, 30, -10, 44].foldl (fun rs v => insertRow (planeRow v 0) rs) []
    rows = [177, 184, 204, 209] ∧ litRows false rows (some 174) = rows ∧
      litRows true rows (some 174) = List.range' 174 36 := by decide +kernel

/-- 05 R92, R93 and section 5.7, Intensity and decay. -/
theorem test_decay : [255, 239, 224, 210, 250].map (decayed 16) = [239, 224, 210, 196, 234] ∧ decayed 1 1 = 0 ∧
    decayed 255 255 = 0 := by decide

/-- 06 R104's table. -/
theorem test_draw_orders : [0, 6, 17, 23].map (fun n => (drawOrder n).map Ch.num) =
    [[1, 2, 3, 4], [2, 1, 3, 4], [3, 4, 2, 1], [4, 3, 2, 1]] := by decide

/-- 07 R128's examples. -/
theorem test_acceleration :
    (accelerated 4 5 3, accelerated 4 5 6, accelerated 4 10 30, accelerated 4 10 127, accelerated 0 10 30) =
      (3, 30, 127, 127, 30) := by decide

/-! ## Checks and records -/

/-- The check value of the generator of 09 R164 over the digits 1 to 9, and of that of 10 R185. -/
theorem test_checks : crc32 [0x31, 0x32, 0x33, 0x34, 0x35, 0x36, 0x37, 0x38, 0x39] = 0xCBF43926 ∧
    crc16 [0x31, 0x32, 0x33, 0x34, 0x35, 0x36, 0x37, 0x38, 0x39] = 0x29B1 := by decide +kernel

/-- 12 R214, R216: a SET_FIELD frame of CH1.POS to -1, written out byte by byte, is that command. -/
theorem test_set_field_frame : decodeFrame ⟨0x20, 0x05, [0x12, 0xFF, 0xFF, 0xFF, 0xFF, 0xFF, 0xFF, 0xFF, 0xFF]⟩ =
    .setField 0x05 0x12 (-1) := by decide +kernel

/-- 12 R215: a READ frame of buffer 2, CH1, segment 0, first 300, count 700 (11 section 11.9). -/
theorem test_read_frame : decodeFrame ⟨0x45, 0x30, [2, 1, 0, 0, 0, 0, 1, 0x2C, 0, 0, 2, 0xBC]⟩ =
    .read 0x30 2 1 0 300 700 := by decide +kernel

/-- The table gives no row bits. -/
theorem test_no_words : decodeTableWord 16 0x1234 = none := by decide

/-! ## States the witnesses stand in -/

/-- A row's next state. -/
def next (i : Instr) (s : State) : Option State :=
  match exec i s with
  | .next t => some t
  | _ => none

/-- Power-on recall has ended, and the receiver has its symbol alignment. -/
def idle : State :=
  { State.reset with link := { Link.reset with aligned := true }, store := { Store.reset with activity := .idle } }

/-- The same before power-on recall ends. -/
def starting : State := { idle with store := Store.reset }

/-- A field of the working setup given another value. -/
def setW (id : Nat) (v : Int) (s : State) : State := s.withSetup { s.setup with working := s.w.put id v }

/-- CH1's entry for range 6 loaded, so that a start passes its checks. -/
def loaded : State := { idle with sp := { SamplePath.reset with corr := ⟨[(6, ⟨512, 4096, true⟩)]⟩ } }

/-- A segment of the default setup in ARMING in buffer 0, in RUN. -/
def arming : State :=
  { loaded with
    sp := { loaded.sp with grouping := some ⟨.sample, 1, [.ch1]⟩ },
    acq := { Acq.reset with run := .run, state := .arming, cur := some 0, seg := some ⟨false, none⟩,
                            captured := some Setup.default.capture },
    pool := Pool.reset.setBuf 0 ⟨.filling, false, false, none⟩ }

/-- The same segment in READY with the sequencer enabled, its comparator LOW. -/
def ready : State :=
  { arming with
    acq := { arming.acq with state := .ready, fill := 3500, ordinal := 3500 },
    trg := { Trigger.reset with enabled := true, comps := [false], meas := some ⟨none, 0, 0⟩ } }

/-- The same segment drained in TRIGGERED. -/
def drained : State :=
  { arming with
    sp := loaded.sp,
    acq := { arming.acq with state := .triggered, seg := some ⟨false, some ⟨5, 0, .sequence, 3500, 0⟩⟩ } }

/-- The descriptor of a completed record set of the default setup. -/
def descriptor : Descriptor := ⟨1, Setup.default.capture, false, false, false, [⟨5, 0, .sequence, 0, 0, false⟩]⟩

/-- Buffer 0 holds a NEW record set. -/
def pictured : State :=
  { loaded with
    acq := { Acq.reset with nextSeq := 2 },
    pool := { Pool.reset.setBuf 0 ⟨.new, false, false, some descriptor⟩ with completion := [0] } }

/-- With ACQ.BUFFERS 2, buffer 0 is pinned and SHOWN and buffer 1 is DRAWING. -/
def crowded : State :=
  setW 0x06 2 { loaded with
    ras := ⟨some (Drawing.atSegment 1 0 0 0)⟩,
    pool := { count := 2, completion := [0, 1],
              bufs := ⟨[(0, ⟨.shown, true, false, some descriptor⟩), (1, ⟨.drawing, false, false, some descriptor⟩)]⟩ } }

/-- A stream reads buffer 0. -/
def stream : Stream :=
  { buf := 0, seq := 1, chan := .ch1, seg := 0, first := 0, next := 0, remaining := 10, tag := 1, collided := false,
    base := 0, len := 7000, perIndex := 1, pos := 0, cut := 0, sent := 0, last := 10 }

/-- `crowded` with buffer 0 unpinned, so that a start recycles it, while a stream reads it and a grant of the stream runs. -/
def recyclable : State :=
  { crowded with
    pool := crowded.pool.setBuf 0 ⟨.shown, false, false, some descriptor⟩,
    smc := ⟨[], some ⟨6, .readout ⟨0, 7000, 0, 10⟩ true⟩⟩,
    readout := { stream := some stream, words := [1, 2], frames := [] } }

/-- The decoder takes a command as it arrives (log 4). -/
theorem takes_here (i : Instr) (s : State) (hw : i.wf = true) (hf : s.link.fifo = []) (ha : s.link.aligned = true)
    (hr : s.link.framer = .waiting) (hd : s.decoderFree = true) : takes i s s := by
  simp [takes, State.takeFrame, hw, hf, ha, hr, hd]

/-- Every well-formed command is taken where the block rests. -/
theorem takes_idle (i : Instr) (hw : i.wf = true) : takes i idle idle := takes_here i idle hw rfl rfl rfl rfl

/-- And where power-on recall has not ended. -/
theorem takes_starting (i : Instr) (hw : i.wf = true) : takes i starting starting :=
  takes_here i starting hw rfl rfl rfl rfl

/-! ## Witnesses: the machine, encodings, invariants -/

theorem witness_StepRunsTheFrontCommand : (idle.withPending [.frameTick]).pending = .frameTick :: [] := rfl

theorem witness_WellFormedCommandsRun : (Instr.press 96).wf = false ∧ (Instr.press 95).wf = true := by decide

/-- A grant of a word beyond the memory meets the fault of 04 R68 at its end. -/
theorem test_no_such_word :
    exec .drawReadGrantEnd (State.reset.withSmc ⟨[], some ⟨0, .draw ⟨134217728, 1, 0, 1⟩ true⟩⟩) =
      .fault .noSuchWord := rfl

/-- One frame waits, the one the command is decoded from; with the FIFO empty a frame is taken as it arrives; the frames
of an unknown TYPE and of a LENGTH one too long are taken. -/
theorem witness_DecoderTakesAndChecksFrames :
    takes (.run 7) (idle.withLink { idle.link with fifo := [⟨0x30, 7, []⟩] }) idle ∧ takes (.run 7) idle idle ∧
      takes (.unknownType ⟨0x77, 1, []⟩) idle idle ∧ takes (.badlen ⟨0x30, 1, [0]⟩) idle idle :=
  ⟨⟨rfl, rfl⟩, takes_idle _ rfl, takes_idle _ rfl, takes_idle _ rfl⟩

theorem witness_CommandFramesRoundTrip :
    (Instr.text 0 0 0 (List.replicate 2046 0)).wf = true ∧
      (frameOf (.text 0 0 0 (List.replicate 2046 0))).isSome = true ∧
      (⟨0x77, 0, List.replicate 2048 0⟩ : Frame).payload.length ≤ 2048 := by decide +kernel

theorem witness_LinkFramesRoundTrip :
    (List.replicate 2048 (0 : Byte)).length ≤ 2048 ∧
      goodFrame (frameBytes 0x43 7 [3]) = some ⟨0x43, 7, [3]⟩ := by decide +kernel

/-- A SAVE of the default setup, at the first slot and at the last. -/
theorem witness_SavedSetupsReadBack :
    ∀ slot ∈ [1, 16], let w : Write := ⟨.save, slot, Setup.default, List.replicate 16 0x7E, 0, .erase, 0, false⟩
      w.op = .save ∧ 1 ≤ w.slot ∧ w.slot ≤ 16 ∧ w.snapshot.inRange = true ∧ w.name.length = 16 ∧
        w.name.all nameChar = true := by decide +kernel

/-- A state in which a segment is being filled and a sample is next. -/
def sampling : State := arming.withPending [.sample (some 600) none none none true none]

theorem sampling_steps : ∃ t, step sampling = .next t := ⟨_, rfl⟩

theorem witness_SetupsStayInRange : sampling.setupsInRange = true ∧ ∃ t, step sampling = .next t :=
  ⟨by decide +kernel, sampling_steps⟩

theorem witness_TablesStayCanonical : sampling.canonical = true ∧ ∃ t, step sampling = .next t :=
  ⟨by decide +kernel, sampling_steps⟩

theorem witness_BoundsAreKept :
    (sampling.memInside = true ∧ sampling.cellsBounded = true ∧ sampling.phasesAgree = true ∧
      sampling.queuesBounded = true ∧ sampling.fetchBounded = true) ∧ ∃ t, step sampling = .next t :=
  ⟨by decide +kernel, sampling_steps⟩

theorem witness_ReportsStayCoalesced : sampling.reportsCoalesced ∧ ∃ t, step sampling = .next t :=
  ⟨⟨Nat.zero_le 1, Nat.zero_le 1, fun _ => Nat.zero_le 1⟩, sampling_steps⟩

theorem witness_AcquisitionStaysInAgreement : sampling.acqInv = true ∧ ∃ t, step sampling = .next t :=
  ⟨by decide +kernel, sampling_steps⟩

theorem witness_PoolStaysInAgreement : sampling.poolInv = true ∧ ∃ t, step sampling = .next t :=
  ⟨by decide +kernel, sampling_steps⟩

/-- Changes of the flash at its last place, and grants of each kind in progress or none. -/
theorem witness_PowerOnResetKeepsTheMemories :
    upsetWf [(17407, 1)] = true ∧ idle.smc.grant = none ∧
      ∀ j ∈ [GrantJob.write [] true, .draw ⟨0, 1, 0, 1⟩ true, .readout ⟨0, 1, 0, 1⟩ true],
        (idle.withSmc ⟨[], some ⟨6, j⟩⟩).smc.grant = some ⟨6, j⟩ :=
  ⟨by decide, rfl, fun _ _ => rfl⟩

/-- RESET in each of the four activities, with a grant in progress and a frame in transmission, and RESET_TAKEN once a deferred
RESET is due. -/
theorem witness_CommandResetKeepsTheTables :
    takes (.reset 9) idle idle ∧ takes (.reset 9) starting starting ∧
      (∀ a ∈ [Activity.reading, .writing], ∃ s : State, takes (.reset 9) s s ∧ s.store.activity = a) ∧
      (∃ s : State, s.store.activity = .idle ∧ s.store.deferred ≠ []) ∧
      ∃ s : State, takes (.reset 9) s s ∧ s.store.activity = .idle ∧ s.smc.grant = some ⟨6, .draw ⟨0, 1, 0, 1⟩ true⟩ ∧
        s.link.lane = some ⟨[1], false, 88⟩ :=
  ⟨takes_idle _ rfl, takes_starting _ rfl,
    fun a _ => ⟨idle.withStore { idle.store with activity := a }, takes_here _ _ rfl rfl rfl rfl rfl, rfl⟩,
    ⟨idle.withStore { idle.store with deferred := [3] }, rfl, by decide⟩,
    { idle with smc := ⟨[], some ⟨6, .draw ⟨0, 1, 0, 1⟩ true⟩⟩, link := { idle.link with lane := some ⟨[1], false, 88⟩ } },
    takes_here _ _ rfl rfl rfl rfl rfl, rfl, rfl, rfl⟩

/-! ## Witnesses: samples and the trigger -/

/-- Either sign of r - z, the ends of the ranges, and a quotient half-way between integers. -/
theorem witness_CorrectionRoundsHalfAwayFromZero :
    ∀ p ∈ [((⟨0, 8191, true⟩ : CorrEntry), 1023), (⟨1023, 8191, true⟩, 0), (⟨512, 2048, true⟩, 511)],
      p.2 ≤ 1023 ∧ p.1.zero ≤ 1023 ∧ p.1.gain ≤ 8191 := by decide

theorem witness_correction_half_way : 2 * (4096 * correctedRaw ⟨512, 2048, true⟩ 511 - (-1) * 2048).natAbs = 4096 := by
  decide

/-- One member, members whose sum is negative, 0 and positive, and 10^6 members. -/
theorem witness_HiresWordsHoldTheMean :
    (∀ ms ∈ [[((-512 : Int), true)], group19, [(-1, false), (1, false)], [(511, true)]],
      1 ≤ ms.length ∧ ms.length ≤ 1000000 ∧ ∀ m ∈ ms, -512 ≤ m.1 ∧ m.1 ≤ 511) ∧
    (Setup.default.put 0x01 2).mode = .hires := by decide +kernel

theorem witness_hires_longest : (List.replicate 1000000 ((511 : Int), false)).length = 1000000 ∧
    ∀ m ∈ List.replicate 1000000 ((511 : Int), false), -512 ≤ m.1 ∧ m.1 ≤ 511 :=
  ⟨List.length_replicate, fun m h => by rw [List.eq_of_mem_replicate h]; decide⟩

theorem witness_SampleAndPeakWordsFollowTheGroup :
    (∀ m ∈ (-512, true) :: [((511 : Int), false)], -512 ≤ m.1 ∧ m.1 ≤ 511) ∧ Setup.default.mode = .sample ∧
      (Setup.default.put 0x01 1).mode = .peak := by decide +kernel

/-- The EXT pin against the conditioned value with a count of 1 and of 2, a state with no segment being filled, a write grant
that is not due at a split, and codes on both sides of each end of the corrected range. -/
theorem witness_SamplesAreTakenAtEveryTick :
    idle.trg.ext = false ∧ (idle.withTrg { idle.trg with extCount := 1 }).trg.extCount < 2 ∧
      2 ≤ (idle.withTrg { idle.trg with extCount := 2 }).trg.extCount ∧ idle.sp.grouping = none ∧
      (idle.withSmc ⟨[], some ⟨1, .write [] true⟩⟩).smc.grant = some ⟨1, .write [] true⟩ ∧ idle.due 1 = false ∧
      correctedRaw ⟨512, 4096, true⟩ 1023 = 511 ∧ 511 < correctedRaw ⟨511, 4096, true⟩ 1023 ∧
      correctedRaw ⟨512, 4096, true⟩ 0 = -512 ∧ correctedRaw ⟨513, 4096, true⟩ 0 < -512 := by decide +kernel

/-- ARMING, READY and TRIGGERED, with D = 1, where every sample ends its group, and D = 2, where a group's first does not; a
write grant due at a split and not; the last group of the pretrigger and the one before it; a holdoff that runs and none. -/
theorem witness_GroupsAreHandedWhole :
    (∀ d ∈ [1, 2], ∀ st ∈ [AcqState.arming, .ready, .triggered],
      let s := (arming.withSp { arming.sp with grouping := some ⟨.sample, d, [.ch1]⟩ }).withAcq
        { arming.acq with state := st }
      s.sp.grouping = some ⟨.sample, d, [.ch1]⟩ ∧ s.acq.captured = some Setup.default.capture ∧ s.acq.cur = some 0 ∧
        s.acq.seg.isSome = true ∧ (s.acq.state = .arming ∨ s.acq.state = .ready ∨ s.acq.state = .triggered) ∧
        (s.sp.groupPos + 1 < d ∨ d ≤ s.sp.groupPos + 1)) ∧
    (∀ n ∈ [0, 1], ∀ k ∈ [true, false],
      let e : Tick := ticks n
      let s := arming.withSmc ⟨[⟨0, 7, 9, 0⟩], some ⟨e, .write [⟨0, 7, 9, 0⟩] k⟩⟩
      s.smc.grant = some ⟨e, .write [⟨0, 7, 9, 0⟩] k⟩ ∧ s.due e = decide (n = 0)) ∧
    3498 + 1 < Setup.default.capture.pre ∧ Setup.default.capture.pre ≤ 3499 + 1 ∧ arming.trg.holdoff = none ∧
      (arming.withTrg { arming.trg with holdoff := some 9 }).trg.holdoff ≠ none := by decide +kernel

/-- The group of a sample in ARMING: CH1's word at ring position 0, and the next ordinal. -/
theorem test_sample_hands_its_group :
    (next (.sample (some 600) none none none false none) arming).map (fun t => (t.smc.fifo, t.acq.ordinal, t.acq.fill)) =
      some ([⟨0, 88, 0, 0⟩], 1, 1) := by decide +kernel

/-- The same segment with a number of groups written, a fire at ordinal 0 with a pretrigger of 3500 of 7000. -/
def filled (st : AcqState) (n : Nat) : State :=
  arming.withAcq { arming.acq with
    state := st, fill := n, ordinal := n, seg := some ⟨false, if st = .triggered then some ⟨0, 0, .forced, 0, 3500⟩ else none⟩ }

/-- 03 R48, R49: the last group of the pretrigger enters READY, in READY the ring goes on past N groups, and the group with
which the posttrigger is full ends filling. -/
theorem test_filling :
    [filled .arming 3498, filled .arming 3499, filled .ready 7000, filled .triggered 3498, filled .triggered 3499].map
      (fun s => (next (.sample (some 600) none none none false none) s).map (fun t =>
        (t.acq.state, t.smc.fifo.map (fun e => e.addr), t.sp.grouping.isSome))) =
      [some (.arming, [3498], true), some (.ready, [3499], true), some (.ready, [0], true),
        some (.triggered, [3498], true), some (.triggered, [3499], false)] := by decide +kernel

/-- 04 R72: of a group of two words at a full FIFO, a write grant of one entry that ends between them lets the second in. -/
theorem test_grant_ends_within_a_group :
    let s := { arming with
      sp := { arming.sp with grouping := some ⟨.peak, 1, [.ch1]⟩ },
      smc := ⟨List.replicate 4096 ⟨5, 7, 9, 0⟩, some ⟨0, .write [⟨5, 7, 9, 0⟩] true⟩⟩ }
    [none, some 0, some 1].map (fun split => (next (.sample (some 600) none none none false split) s).map (fun t =>
      (t.smc.fifo.length, t.acq.seg.map (fun r => r.gapped), t.mem.cells))) =
      [some (4096, some true, []), some (4096, some true, [(5, 7)]), some (4096, some true, [(5, 7)])] ∧
    ((next (.sample (some 600) none none none false (some 1)) s).bind (fun t => t.smc.fifo.getLast?)).map
      (fun e => e.addr) = some 1 := by decide +kernel

/-- A stage of each condition, and codes at LEVEL, in the hysteresis band and below it. -/
theorem witness_ComparatorsAndConditionsMatch :
    let st := Setup.default.stage 0
    st.src = .chan .ch1 ∧ 1 ≤ st.hyst ∧ st.cond = .rise ∧ 1 ≤ st.limit ∧ st.level = 0 ∧ st.hyst = 8 ∧
      (compNext st (PerCh.const (-8)) false true, compNext st (PerCh.const (-9)) false true,
        compNext st (PerCh.const (-1)) false false, compNext st (PerCh.const 0) false false) =
        (true, false, false, true) ∧
      [0, 1, 2, 3, 4, 5, 6].map (fun v => ((Setup.default.put 0x41 v).stage 0).cond) =
        [.rise, .fall, .either, .widthLt, .widthGt, .count, .stay] ∧
      ((Setup.default.put 0x40 4).stage 0).src = .ext := by decide +kernel

/-- A stage of a condition that fires at a limit. -/
def stageOf (c : Cond) (limit : Nat) : StageRec := ⟨.ext, c, 0, 1, true, limit, true, 0⟩

/-- Edges each way, a capture held and none, and the boundary of each limit: a width of 50 is not less than 50 nor greater,
a second edge is the second of 2, and a state held for 3 ticks from its anchor is held for 3. -/
theorem test_conditions :
    [(Cond.widthLt, 51, [(false, true, (10 : Tick)), (true, false, 60)]), (.widthLt, 50, [(false, true, 10), (true, false, 60)]),
      (.widthGt, 49, [(false, true, 10), (true, false, 60)]), (.widthGt, 50, [(false, true, 10), (true, false, 60)]),
      (.count, 2, [(false, true, 10), (true, false, 60), (false, true, 61)]), (.count, 2, [(false, true, 10), (true, false, 60)]),
      (.stay, 3, [(false, true, 10), (true, true, 11), (true, true, 12), (true, true, 13)]),
      (.stay, 3, [(false, true, 10), (true, true, 11), (true, true, 12)])].map
        (fun p => (evaluateAll (stageOf p.1 p.2.1) (⟨none, 0, 0⟩, false) p.2.2).2) =
      [true, false, true, false, true, false, true, false] := by decide +kernel

/-- READY with two stages, the first of ONMATCH NEXT. -/
def ready2 : State := setW 0x46 0 (setW 0x09 2 (ready.withTrg { ready.trg with comps := [false, false] }))

/-- The cases of the examination: force-pending, not enabled, and enabled with a measured stage; after a STOP or an ACQ-class
change, where the next sample is examined only if it comes apart. -/
theorem witness_SamplesInReadyAreExaminedOnce :
    (∀ s ∈ [ready, ready2], s.acq.state = .ready ∧ s.trg.forcePending = false ∧ s.trg.enabled = true ∧
      s.trg.meas = some ⟨none, 0, 0⟩ ∧ s.trg.autoPending = false ∧ s.trg.halted = false) ∧
    (ready.withTrg { ready.trg with forcePending := true }).trg.forcePending = true ∧
    (ready.withTrg { ready.trg with autoPending := true }).trg.autoPending = true ∧
    (ready.withTrg Trigger.reset).trg.enabled = false ∧
    ∀ enabled ∈ [true, false], let s := ready.withTrg { ready.trg with halted := true, enabled := enabled }
      s.acq.state = .ready ∧ s.trg.halted = true ∧ s.trg.enabled = enabled := by decide +kernel

/-- What a sample shows of the sequencer: the acquisition state, the kind of a fire, and the stage. -/
def shown (t : State) : AcqState × Option FireKind × Nat :=
  (t.acq.state, (t.acq.seg.bind (fun r => r.fire)).map (fun f => f.kind), t.trg.stage)

/-- A sample of CH1 above every level, and one below. -/
def up : Instr := .sample (some 600) none none none false none
def down : Instr := .sample (some 0) none none none false none

/-- A rising edge fires SEQUENCE, enters stage 1 where ONMATCH is NEXT, and yields to force-pending; without an edge
auto-pending fires AUTO, and without it the stage goes on. -/
theorem test_examination :
    [(up, ready), (up, ready2), (up, ready.withTrg { ready.trg with forcePending := true }),
      (down, ready.withTrg { ready.trg with autoPending := true }), (down, ready), (up, ready.withTrg Trigger.reset)].map
        (fun p => (next p.1 p.2).map shown) =
      [some (.triggered, some .sequence, 0), some (.ready, none, 1), some (.triggered, some .forced, 0),
        some (.triggered, some .auto, 0), some (.ready, none, 0), some (.ready, none, 0)] := by decide +kernel

/-- 02 section 2.14: TRIG OUT is high from the tick after a fire at tick 1202 to tick 1210. -/
theorem test_trig_out : (next (.sample (some 600) none none none false none) (ready.withTrg { ready.trg with tick := 1202 })).map
    (fun t => (t.trg.trigOut, t.trg.holdoff)) = some (some ⟨1203, 1211⟩, some 1202) := by decide +kernel

/-- 02 R36: TRIG OUT is low at the triggering sample's tick, high at the next tick, before and after its sample, and high
throughout where the fire meets a pulse in progress. -/
theorem test_trig_out_rises :
    ([none, some ⟨1198, 1206⟩].map (fun p =>
      let fired := next up (ready.withTrg { ready.trg with tick := 1202, trigOut := p })
      let line := fun x : Option State => x.map State.trigOutHigh
      (line fired, line (fired.map (State.arrive 1203)), line (fired.bind (next down))))) =
      [(some false, some true, some true), (some true, some true, some true)] := by decide +kernel

/-- 03 R62, 02 R38: with pre 0 and a falling edge awaited, a change of ACQ.DECIM re-arms straight into READY, and a sample that
falls together with it does not fire; the next one is examined, as is a sample apart from the change. -/
theorem test_halted_sample :
    ([[], [down], [.sample (some 0) none none none false none true], [up, down]].map (fun is =>
      ((Instr.setField 1 0x02 2 :: is).foldl (fun t i => t.bind (next i))
        (some (setW 0x04 0 (setW 0x41 1 (ready.withTrg { ready.trg with tick := 700 }))))).map shown)) =
      [some (.ready, none, 0), some (.ready, none, 0), some (.triggered, some .sequence, 0),
        some (.triggered, some .sequence, 0)] := by decide +kernel

/-- Each timer at the tick of its expiry. -/
theorem witness_SequencerTimersExpire :
    let s := ready.withTrg { ready.trg with tick := 100000000, timeout := some 100000000, holdoff := some 100000000,
                                            autoStart := some 0, trigOut := some ⟨99999992, 100000000⟩ }
    s.due 100000000 = true ∧ s.trg.timeout = some 100000000 ∧ s.trg.holdoff = some 100000000 ∧
      s.trg.trigOut = some ⟨99999992, 100000000⟩ ∧ s.trg.autoStart = some 0 ∧ s.due (0 + s.w.autoTime) = true ∧
      s.acq.state = .ready ∧ (s.withAcq arming.acq).acq.state ≠ .ready := by decide +kernel

/-- 02 R17: an expiry has not come one tick early. -/
theorem test_not_due : (ready.withTrg { ready.trg with tick := 99 }).due 100 = false := by decide

/-! ## Witnesses: acquisition, buffers and memory -/

/-- A state for each start check, and starts in STOP that are refused, that find no buffer, and that find one, with a
pretrigger and without, FREE and read by a stream. -/
theorem witness_StartsAreCheckedAndArm :
    (∀ c ∈ Ch.all, (setW 0x10 0 idle).w.enabled c = false) ∧ idle.startCheck = some .notloaded ∧
      (setW 0x03 3500000 (setW 0x05 1024 loaded)).startCheck = some .limit ∧ loaded.startCheck = none ∧
      (∀ s ∈ [idle, loaded, crowded, setW 0x04 0 loaded, recyclable], s.recalling = false ∧ s.acq.run = .stop) ∧
      recyclable.startCheck = none ∧ recyclable.pool.choose = some stream.buf ∧ recyclable.readout.stream = some stream ∧
      (recyclable.pool.buf stream.buf).state = .shown ∧ crowded.startCheck = none ∧ crowded.pool.choose = none ∧ loaded.pool.choose = some 0 ∧ loaded.w.pre ≠ 0 ∧
      (setW 0x04 0 loaded).w.pre = 0 ∧ loaded.trg.holdoff = none := by decide +kernel

theorem witness_starts_are_taken : ∀ i ∈ [Instr.run 1, Instr.single 1],
    ∀ s ∈ [idle, loaded, crowded, setW 0x04 0 loaded, recyclable], takes i s s := by
  intro i hi s hs
  simp only [List.mem_cons, List.not_mem_nil, or_false] at hi hs
  obtain rfl | rfl := hi <;> obtain rfl | rfl | rfl | rfl | rfl := hs <;> exact takes_here _ _ rfl rfl rfl rfl rfl

/-- RUN, SINGLE and STOP before power-on recall ends, in STOP and in RUN; FORCE in READY, ARMING and STOPPED. -/
theorem witness_RunStopAndForceTakeEffect :
    (∀ i ∈ [Instr.run 1, .single 1, .stop 1], takes i starting starting) ∧ starting.recalling = true ∧
      (∀ i ∈ [Instr.run 1, .single 1, .stop 1, .force 1], takes i arming arming ∧ takes i ready ready ∧
        takes i idle idle) ∧
      arming.recalling = false ∧ arming.acq.run = .run ∧ idle.acq.run = .stop ∧ arming.acq.state = .arming ∧
      ready.acq.state = .ready ∧ idle.acq.state = .stopped := by
  refine ⟨fun i hi => ?_, rfl, fun i hi => ?_, rfl, rfl, rfl, rfl, rfl, rfl⟩
  · simp only [List.mem_cons, List.not_mem_nil, or_false] at hi
    obtain rfl | rfl | rfl := hi <;> exact takes_starting _ rfl
  · simp only [List.mem_cons, List.not_mem_nil, or_false] at hi
    obtain rfl | rfl | rfl | rfl := hi <;>
      exact ⟨takes_here _ _ rfl rfl rfl rfl rfl, takes_here _ _ rfl rfl rfl rfl rfl, takes_idle _ rfl⟩

/-- A drained segment: the last of its set in SINGLE and in RUN, and one with a segment to follow; an ACQ report that waits
behind another report, none, and a full queue without one. -/
theorem witness_SegmentsCompleteOnceDrained :
    (∀ p ∈ [(RunState.single, 1), (.run, 1), (.run, 2)],
      let c := { Setup.default.capture with segs := p.2 }
      let s := drained.withAcq { drained.acq with run := p.1, captured := some c }
      s.acq.state = .triggered ∧ s.sp.grouping = none ∧
        (∀ e ∈ s.smc.fifo, ¬(e.setId = s.acq.setId ∧ e.seg = s.acq.segIdx)) ∧ s.acq.cur = some 0 ∧
        s.acq.captured = some c ∧ s.acq.seg = some ⟨false, some ⟨5, 0, .sequence, 3500, 0⟩⟩ ∧
        s.link.reports = [] ∧ s.acq.run = p.1 ∧ (s.acq.segIdx + 1 < p.2 ∨ p.2 ≤ s.acq.segIdx + 1)) ∧
    (∀ r ∈ [(⟨false, .wake 0 .press⟩ : Report)], r.body.isAcq = false) ∧
      (List.replicate 32 (⟨false, .wake 0 .press⟩ : Report)).length = 32 ∧
      ∀ r ∈ List.replicate 32 (⟨false, .wake 0 .press⟩ : Report), r.body.isAcq = false := by decide +kernel

/-- 03 R51, R52, R65, 05 R81: in RUN the set is NEW and reported, the idle Rasterizer may take it before what follows, and the
next set is armed in buffer 1, or with every other buffer pinned in the one just completed; a waiting ACQ report is
updated. -/
theorem test_set_completes :
    let pinned := drained.withPool { drained.pool with count := 1 }
    let merging := drained.withLink { drained.link with reports := [⟨true, .acq 3 9 254 1 true false⟩] }
    [(false, drained), (true, drained), (false, pinned), (true, pinned), (false, merging)].map (fun p =>
      (next (.segmentComplete p.1) p.2).map (fun t =>
        (((t.pool.buf 0).state, t.pool.completion), (t.acq.cur, t.acq.state), t.link.reports))) =
      [some ((.new, [0]), (some 1, .arming), [⟨false, .acq 0 1 1 0 false false⟩]),
        some ((.drawing, [0]), (some 1, .arming), [⟨false, .acq 0 1 1 0 false false⟩]),
        some ((.filling, []), (some 0, .arming), [⟨false, .acq 0 1 1 0 false false⟩]),
        some ((.drawing, [0]), (none, .waitBuffer), [⟨false, .acq 0 1 1 0 false false⟩]),
        some ((.new, [0]), (some 1, .arming), [⟨true, .acq 0 1 255 1 true false⟩])] := by decide +kernel

/-- The last segment of buffer 1 of two drained, while a stream reads buffer 0 and a grant of the stream runs. -/
def drainedBeside : State :=
  setW 0x06 2 { recyclable with
    sp := drained.sp, ras := ⟨none⟩, acq := { drained.acq with cur := some 1 },
    pool := { recyclable.pool.setBuf 1 ⟨.filling, false, false, none⟩ with completion := [0] } }

/-- 03 R47, R48, R52, R58, 11 R210: the next set recycles buffer 0, which ends the stream with GONE; grouping opens, and with a
pretrigger of 0 the sequencer is enabled in READY. -/
theorem test_next_set_recycles :
    drainedBeside.poolAgrees = true ∧
      [drainedBeside, setW 0x04 0 drainedBeside].map (fun s => (next (.segmentComplete false) s).map (fun t =>
        ((t.acq.cur, t.acq.state, t.pool.completion), t.sp.grouping.isSome, t.trg.enabled))) =
        [some ((some 0, .arming, [1]), true, false), some ((some 0, .ready, [1]), true, true)] ∧
      (next (.segmentComplete false) drainedBeside).map (fun t => (t.smc.grant, t.readout)) =
        some (some ⟨6, .readout ⟨0, 7000, 0, 10⟩ false⟩, ⟨none, [], [⟨1, 0, 0, .gone, false, []⟩]⟩) := by decide +kernel

/-- Buffers to choose: a FREE one, an unpinned SHOWN one that a stream reads, an unpinned NEW one, none; and a NEW one to
draw. -/
theorem witness_BuffersAreTakenInOrder :
    let p (st : BufState) : Pool := { count := 1, completion := [0], bufs := ⟨[(0, ⟨st, false, false, some descriptor⟩)]⟩ }
    idle.pool.choose = some 0 ∧ (p .shown).choose = some 0 ∧ (p .new).choose = some 0 ∧ crowded.pool.choose = none ∧
      (crowded.withAcq { crowded.acq with state := .waitBuffer }).acq.state = .waitBuffer ∧
      (let s := recyclable.withAcq { recyclable.acq with state := .waitBuffer }
       s.acq.state = .waitBuffer ∧ s.pool.choose = some stream.buf ∧ s.readout.stream = some stream) ∧
      pictured.ras.drawing = none ∧
      pictured.pool.completion.find? (fun j => decide ((pictured.pool.buf j).state = .new)) = some 0 ∧
      (pictured.pool.buf 0).desc = some descriptor ∧ descriptor.values.chans = (.ch1, 6) :: [] := by decide +kernel

theorem test_wait_buffer_ends :
    (next .reexamination ({ pictured with acq := { Acq.reset with run := .run, state := .waitBuffer } })).map
      (fun t => (t.acq.cur, t.acq.state)) = some (some 1, .arming) := by decide +kernel

/-- 05 R80: the IDLE Rasterizer takes the NEW buffer. -/
theorem test_rasterizer_takes :
    (next .rasterizerTake pictured).map (fun t => ((t.pool.buf 0).state, t.ras.drawing.map (fun d => d.buf))) =
      some (.drawing, some 0) := by decide +kernel

/-- PIN and UNPIN of an index at B and one below it, of a FREE, a NEW and a pinned buffer, and of one beyond B - 1. -/
theorem witness_PinsFollowTheirTable :
    (∀ b : Byte, takes (.pin 1 b) pictured pictured ∧ takes (.unpin 1 b) pictured pictured ∧
      takes (.pin 1 b) crowded crowded ∧ takes (.unpin 1 b) crowded crowded) ∧
      pictured.pool.count ≤ (4 : Byte).toNat ∧ (3 : Byte).toNat < pictured.pool.count ∧
      (pictured.pool.buf 3).state = .free ∧ (pictured.pool.buf 0).state = .new ∧
      (pictured.pool.buf 0).pinned = false ∧ pictured.pool.pinnedCount + 1 < pictured.pool.count ∧
      (crowded.pool.buf 0).pinned = true ∧ (crowded.pool.buf 1).pinned = false ∧
      crowded.pool.count ≤ crowded.pool.pinnedCount + 1 :=
  ⟨fun _ => ⟨takes_here _ _ rfl rfl rfl rfl rfl, takes_here _ _ rfl rfl rfl rfl rfl,
      takes_here _ _ rfl rfl rfl rfl rfl, takes_here _ _ rfl rfl rfl rfl rfl⟩, by decide +kernel⟩

/-- One word waits with no segment being filled; a Rasterizer with words of its segment left and with none; a stream with room
for its next words and without; a grant of two words, one of them the last, is due. -/
theorem witness_GrantsFollowThePromotionAndWrite :
    let s := idle.withSmc ⟨[⟨0, 7, 0, 0⟩], none⟩
    s.smc.grant = none ∧ s.request .acqWrite = some (.write [⟨0, 7, 0, 0⟩] true) ∧ idle.request .acqWrite = none ∧
      (∀ p ∈ [(0, Promote.none), (1, .draw), (2, .readout)], (setW 0x32 p.1 s).w.promote = p.2) ∧
      (crowded.pool.buf 1).desc = some descriptor ∧
      (∀ n ∈ [6999, 7000], (crowded.withRas ⟨some ⟨1, 0, 0, 699, 0, n, 0, [], none⟩⟩).ras.drawing =
        some ⟨1, 0, 0, 699, 0, n, 0, [], none⟩ ∧ (n < descriptor.values.stored ∨ descriptor.values.stored ≤ n)) ∧
      idle.ras.drawing = none ∧ idle.readout.stream = none ∧
      0 < min 64 (stream.remaining * stream.perIndex) ∧ 8182 + 10 ≤ 8192 ∧ 8192 < 8183 + 10 ∧
      (∀ e ∈ [(⟨0, 7, 0, 0⟩ : FifoEntry), ⟨134217727, 8, 0, 0⟩], e.addr < 134217728) ∧ idle.due 0 = true := by
  decide +kernel

/-- 04 R73 under MEM.PROMOTE READOUT: the stream's burst is granted before the waiting word. -/
theorem test_arbitration_promotes :
    (next .arbitration (setW 0x32 2 ((idle.withSmc ⟨[⟨0, 7, 0, 0⟩], none⟩).withReadout
      { Readout.reset with stream := some stream }))).map (fun t => t.smc.grant.map (fun g => g.job)) =
      some (some (.readout ⟨0, 7000, 0, 10⟩ true)) := by decide +kernel

/-- 04 section 4.5: a grant made at tick 900 ends at tick 906, before that tick's sample or after it. -/
theorem test_grant_lasts_six_ticks :
    [(true, 900), (false, 901)].map (fun p : Bool × Tick => (next .arbitration ((idle.withSmc ⟨[⟨0, 7, 0, 0⟩], none⟩).withTrg
      { idle.trg with tick := p.2, begun := p.1 })).map (fun t => t.smc.grant.map (fun g => g.ends))) =
      [some (some 906), some (some 906)] := by decide +kernel

theorem test_write_grant_ends :
    (next .acqWriteGrantEnd (idle.withSmc ⟨[⟨9, 7, 0, 0⟩], some ⟨0, .write [⟨9, 7, 0, 0⟩] true⟩⟩)).map
      (fun t => (t.mem.cells, t.smc)) = some ([(9, 7)], ⟨[], none⟩) := by decide +kernel

/-! ## Witnesses: drawing, reading out and the screen -/

/-- DRAWING buffer 0 with a record of 700 words: its column 698 complete with the word of a due grant. -/
def drawing : State :=
  let c := { Setup.default.capture with len := 700, stored := 700 }
  { pictured with
    pool := { pictured.pool with bufs := ⟨[(0, ⟨.drawing, false, false, some { descriptor with values := c }⟩)]⟩ },
    smc := ⟨[], some ⟨0, .draw ⟨0, 700, 699, 1⟩ true⟩⟩,
    ras := ⟨some ⟨0, 0, 0, 698, 699, 698, 0, [], some 210⟩⟩ }

/-- DRAWING, in either style, with a due grant wanted and withdrawn, and in a column with words to come and not, in the last
column with a segment to follow, with a channel to follow and with neither, in persistence OFF and not. -/
theorem witness_CompletedColumnsAreLit :
    (∀ v ∈ [0, 1], ∀ wanted ∈ [true, false],
      let s := (setW 0x22 v drawing).withSmc ⟨[], some ⟨0, .draw ⟨0, 700, 699, 1⟩ wanted⟩⟩
      s.smc.grant = some ⟨0, .draw ⟨0, 700, 699, 1⟩ wanted⟩ ∧ s.w.vectors = decide (v = 1) ∧ s.due 0 = true ∧
        (∀ a ∈ (⟨0, 700, 699, 1⟩ : Burst).addrs, a < 134217728) ∧ s.ras.drawing.isSome = true) ∧
    (∀ p ∈ [(1400, 698, 0, 1, [(Ch.ch1, 6)]), (700, 698, 0, 1, [(.ch1, 6)]), (700, 699, 0, 2, [(.ch1, 6)]),
        (700, 699, 0, 1, [(.ch1, 6), (.ch3, 6)]), (700, 699, 1, 2, [(.ch1, 6)])],
      let d : Descriptor := { descriptor with
        values := { descriptor.values with chans := p.2.2.2.2, stored := p.1, segs := p.2.2.2.1 } }
      let g : Drawing := ⟨0, 0, p.2.2.1, p.2.1, 0, 0, 0, [7, 399], some 399⟩
      let s := (drawing.withRas ⟨some g⟩).withPool (drawing.pool.setBuf 0 ⟨.drawing, false, false, some d⟩)
      s.ras.drawing = some g ∧ (s.pool.buf 0).desc = some d ∧ d.values.chans[0]? = some (.ch1, 6) ∧
        (g.rows.length = 2 ∧ ∀ x ∈ g.rows, x < 400) ∧ (g.inCol + 1 < p.1 / 700 ∨ p.1 / 700 ≤ g.inCol + 1) ∧
        (p.2.1 < 699 ∨ 699 ≤ p.2.1)) ∧
    List.Pairwise (· < ·) [7, 399] ∧ (setW 0x20 0 drawing).w.persist = .off := by decide +kernel

/-- 05 R89, R90: the vector from row 210 to the row of code 0, each cell gaining CH1.WEIGHT = 16. -/
theorem test_column_is_lit :
    (next .drawReadGrantEnd drawing).map (fun t => ([198, 199, 205, 210, 211].map (t.cell .ch1 698),
      t.ras.drawing.map (fun d => (d.col, d.prev)))) = some ([0, 16, 16, 16, 0], some (699, some 199)) := by
  decide +kernel

/-- 05 R82, R84: the last word of column 699 moves to the next segment from its ring origin, to the next channel, or ends the
drawing. -/
theorem test_last_column :
    [(2, [(Ch.ch1, 6)]), (1, [(.ch1, 6), (.ch3, 6)]), (1, [(.ch1, 6)])].map (fun p : Nat × List (Ch × Nat) =>
      let c := { descriptor.values with chans := p.2, len := 700, stored := 700, segs := p.1 }
      let entry : SegEntry := ⟨5, 0, .sequence, 33, 0, false⟩
      let s := drawing.withPool (drawing.pool.setBuf 0 ⟨.drawing, false, false, some { descriptor with values := c, segs := [entry, entry] }⟩)
      let t := (s.withRas ⟨some ⟨0, 0, 0, 699, 0, 700, 0, [], some 210⟩⟩).drawWord 0
      ((t.pool.buf 0).state, t.ras.drawing.map (fun g => [g.place, g.seg, g.col, g.nextPos]), t.cell .ch1 699 199)) =
    [(.drawing, some [0, 1, 0, 33], 16), (.drawing, some [1, 0, 0, 33], 16), (.shown, none, 16)] := by decide +kernel

/-- READ of a buffer at B, of a channel outside 1..4, of a FREE buffer, of a channel not recorded, of a segment, a first
index and a count at the ends of their ranges, and one accepted; READ and READ_CANCEL with a stream and without. -/
theorem witness_StreamsBeginAndAreCancelled :
    (∀ (b c : Byte) (g : BitVec 16) (f n : BitVec 32), takes (.read 1 b c g f n) pictured pictured) ∧
      takes (.readCancel 1) idle idle ∧
      (let s := pictured.withReadout { Readout.reset with stream := some stream }
       takes (.readCancel 1) s s ∧ takes (.read 1 0 1 0 0 1) s s ∧ s.readout.stream = some stream) ∧
      pictured.pool.count ≤ (4 : Byte).toNat ∧ Ch.ofNum (5 : Byte).toNat = none ∧ Ch.ofNum (1 : Byte).toNat = some .ch1 ∧
      (0 : Byte).toNat < pictured.pool.count ∧ (pictured.pool.buf 1).state = .free ∧
      (pictured.pool.buf 0).state = .new ∧ (pictured.pool.buf 0).desc = some descriptor ∧
      descriptor.values.chans[0]? = some (.ch1, 6) ∧ descriptor.values.segs ≤ (1 : BitVec 16).toNat ∧
      (0 : BitVec 16).toNat < descriptor.values.segs ∧ descriptor.values.len ≤ (7000 : BitVec 32).toNat ∧
      (6999 : BitVec 32).toNat < descriptor.values.len ∧ (0 : BitVec 32).toNat = 0 ∧ 0 < (1 : BitVec 32).toNat ∧
      idle.readout.stream = none :=
  ⟨fun _ _ _ _ _ => takes_here _ _ rfl rfl rfl rfl rfl, takes_idle _ rfl,
    ⟨takes_here _ _ rfl rfl rfl rfl rfl, takes_here _ _ rfl rfl rfl rfl rfl, rfl⟩, by decide +kernel⟩

/-- 11 section 11.9: READ of buffer 2 of CH1 in PEAK, first 300, count 700, begins at ring position 2600. -/
theorem test_read_begins :
    let c : Captured := ⟨[(.ch1, 6), (.ch3, 6)], .peak, 1, 1400, 2800, 350, 1⟩
    let d : Descriptor := ⟨57, c, false, false, false, [⟨5, 0, .sequence, 2000, 0, false⟩]⟩
    let s := idle.withPool { Pool.reset with bufs := ⟨[(2, ⟨.shown, false, false, some d⟩)]⟩, completion := [2] }
    (next (.read 0x30 2 1 0 300 700) s).map (fun t => t.readout.stream.map (fun st =>
      ((st.pos, st.remaining, st.perIndex, st.base), st.last))) = some (some ((2600, 700, 2, 67108864), 1000)) := by
  decide +kernel

/-- A due grant of the stream's, wanted and not; and a frame's words at hand, the last index included. -/
theorem witness_StreamsAreFetchedAndCut :
    (∀ wanted ∈ [true, false],
      let s := (idle.withSmc ⟨[], some ⟨0, .readout ⟨0, 7000, 0, 10⟩ wanted⟩⟩).withReadout
        { Readout.reset with stream := some stream }
      s.smc.grant = some ⟨0, .readout ⟨0, 7000, 0, 10⟩ wanted⟩ ∧ s.readout.stream = some stream ∧ s.due 0 = true ∧
        ∀ a ∈ (⟨0, 7000, 0, 10⟩ : Burst).addrs, a < 134217728) ∧
    let s := idle.withReadout { Readout.reset with stream := some stream, words := List.replicate 10 5 }
    s.readout.stream = some stream ∧ s.readout.frames = [] ∧ 0 < stream.perIndex ∧
      0 < min 1000 ((stream.last - stream.cut) * stream.perIndex) ∧
      min 1000 ((stream.last - stream.cut) * stream.perIndex) ≤ s.readout.words.length := by decide +kernel

/-- The first frame tick and the first backlight period are due at reset; in persistence VARIABLE and not; levels 0, 255
and between; and a high time that ends. -/
theorem witness_FramesAndBacklightFollowTheirTicks :
    idle.due (ticks (idle.comp.nextFrame * 50000000 / 3)) = true ∧ idle.w.persist = .variable ∧
      idle.canonical = true ∧ (setW 0x20 0 idle).w.persist ≠ .variable ∧ idle.due idle.comp.nextPeriod = true ∧
      (idle.withComp { idle.comp with pwmEnd := some 0 }).comp.pwmEnd = some 0 ∧ idle.due 0 = true := by
  decide +kernel

/-- 06 R119: level 255 holds BL PWM high for its period, level 48 for 9 600 ticks. -/
theorem test_backlight :
    (next .backlightPeriod idle).map (fun t => (t.comp.pwm, t.comp.pwmEnd)) = some (true, none) ∧
      (next .backlightPeriod (idle.withComp { idle.comp with dim := true })).map (fun t => (t.comp.pwm, t.comp.pwmEnd)) =
        some (true, some 9600) := by decide +kernel

/-- 05 R92 at a frame tick: a cell of 250 under DSP.DECAY = 16 falls to 234. -/
theorem test_frame_tick_decays :
    (next .frameTick (setW 0x21 16 (idle.withPlanes (idle.planes.set .ch2 ⟨[(cellKey 3 7, 250)]⟩)))).map
      (fun t => (t.cell .ch2 3 7, t.comp.scan)) = some (234, some 0) := by decide +kernel

/-- A frame being formed whose overlay, planes and markers show something: code 0x7F at cell (0, 1), a lit cell of CH2 at
the top left of the waveform area, and the cursor at cell (0, 0). -/
def forming (n : Nat) : State :=
  { idle with
    planes := idle.planes.set .ch2 ⟨[(cellKey 0 0, 33)]⟩,
    comp := { Compositor.reset with
      scan := some n, text := ⟨[(1, 0x7F)]⟩, cursor := ⟨true, 0, 0⟩, palette := ⟨[(0, ⟨9, 9, 9⟩), (3, ⟨3, 3, 3⟩), (4, ⟨4, 4, 4⟩), (5, ⟨5, 5, 5⟩)]⟩,
      clut := ⟨[(18, ⟨2, 2, 2⟩)]⟩ } }

/-- The first pixel, the last, and one of each layer: the cursor's, the overlay's, a lit cell's, the grid's and the
background's. -/
theorem witness_PixelsTakeTheFirstLayer :
    (∀ n ∈ [0, 8, 32050, 32051, 383999], (forming n).comp.scan = some n ∧ n < 384000) ∧
      ((forming 0).comp.cursor.on = true ∧ (forming 0).comp.slow = true ∧ 0 / 20 = (forming 0).comp.cursor.row) ∧
      (forming 8).comp.cursor.col ≠ 8 / 8 ∧ (forming 32050).cell .ch2 (50 - 50) (40 - 40) ≠ 0 := by decide +kernel

theorem test_pixel_layers :
    [0, 8, 32050, 32051, 383999].map (fun n => (next .pixelFormed (forming n)).bind (fun t => t.comp.pixel.map (fun p =>
      p.colour.red))) = [some 3, some 9, some 2, some 4, some 5] := by decide +kernel

/-- 06 R107 to R109: the graticule's dots under each value of DSP.GRID, and the columns of the two markers about row 240 - the
ground marker's tip at column 49, the trigger marker's at 750. -/
theorem test_grid_and_markers :
    ([Grid.full, .axes, .frame, .none].map (fun g => (gridLit g 240 60, gridLit g 41 120, gridLit g 40 60))) =
        [(true, true, true), (true, false, true), (false, false, true), (false, false, false)] ∧
      let c := { Compositor.reset with
        ground := (PerCh.const none).set .ch1 (some ⟨200, false⟩), trigMark := some (.ch1, ⟨200, true⟩),
        clut := ⟨[(15, ⟨1, 1, 1⟩)]⟩, palette := ⟨[(6, ⟨6, 6, 6⟩)]⟩ }
      [(240, 49), (240, 42), (244, 45), (244, 46), (240, 750), (244, 754), (244, 753)].map
        (fun p : Nat × Nat => (c.markerLayer Ch.all p.1 p.2).map (fun x => x.red)) =
        [some 1, some 1, some 1, none, some 6, some 6, none] := by decide +kernel

/-- Cells with the empty code and without, under BLANK and not; rows of scan row 0 and others; every attribute code. -/
theorem witness_OverlayFollowsItsAttributes :
    (forming 0).comp.codeAt (0 / 20) (0 / 8) = 0 ∧ (forming 0).comp.codeAt (0 / 20) (8 / 8) ≠ 0 ∧
      (forming 0).comp.cellSet.blank = false ∧ (forming 8).comp.scan = some 8 ∧ (0x20 : Nat) ≤ 0x20 ∧
      (0x80 : Nat) ≤ 0x80 := by decide +kernel

/-- 06 section 6.12: INVERSE from 0x03 to 0x04, BLINK from 0x09 over the end of the row to 0x0B. -/
theorem test_attribute_flow :
    let c := { Compositor.reset with text :=
      ⟨[(200, 0x56), (201, 0x31), (202, 0x03), (203, 0x52), (204, 0x55), (205, 0x4E), (206, 0x04), (207, 0x20), (208, 0x09),
        (209, 0x21), (300, 0x41), (301, 0x0B), (302, 0x42)]⟩ }
    let none : Attr := ⟨false, false, false, false, false⟩
    [2, 3, 6, 7, 8, 9].map (fun n => (c.flow 2 n none).inverse) = [false, true, true, false, false, false] ∧
      [8, 9, 100].map (fun n => (c.flow 2 n none).blink) = [false, true, true] ∧
      [0, 1, 2].map (fun n => (c.flow 3 n (c.flow 2 100 none)).blink) = [true, true, false] := by decide +kernel

/-! ## Witnesses: tables, overlay and panel commands -/

/-- Values at the ends of the ranges of LOAD_CORR and beyond; a channel outside 1..4; a glyph code at 0x80 and below. -/
theorem witness_SampleAndScreenTablesLoad :
    (∀ (c r : Byte) (z g : BitVec 16), takes (.loadCorr 1 c r z g) idle idle) ∧
      (∀ a : Byte, takes (.loadClut 1 a (List.replicate 48 7)) idle idle) ∧
      takes (.loadPalette 1 (List.replicate 24 7)) idle idle ∧
      (∀ a : Byte, takes (.loadGlyph 1 a (List.replicate 20 7)) idle idle) ∧ Ch.ofNum (4 : Byte).toNat = some .ch4 ∧
      (11 : Byte).toNat ≤ 11 ∧ (1023 : BitVec 16).toNat ≤ 1023 ∧ 1024 ≤ (1024 : BitVec 16).toNat ∧
      (8191 : BitVec 16).toNat ≤ 8191 ∧ Ch.ofNum (0 : Byte).toNat = none ∧ 11 < (12 : Byte).toNat ∧
      1023 < (1024 : BitVec 16).toNat ∧ (1023 : BitVec 16).toNat < 1024 ∧ 8191 < (8192 : BitVec 16).toNat ∧
      0x80 ≤ (0x80 : Byte).toNat ∧ (0x7F : Byte).toNat < 0x80 :=
  ⟨fun _ _ _ _ => takes_idle _ rfl, fun _ => takes_idle _ rfl, takes_idle _ rfl, fun _ => takes_idle _ rfl, by decide⟩

/-- Starts at the last cell and just outside, runs that fit and that do not. -/
theorem witness_TextWritesItsRun :
    (∀ r c : Byte, takes (.text 1 r c [0x41, 0x42]) idle idle) ∧ (23 : Byte).toNat ≤ 23 ∧ (99 : Byte).toNat ≤ 99 ∧
      23 < (24 : Byte).toNat ∧ 99 < (100 : Byte).toNat := ⟨fun _ _ => takes_idle _ rfl, by decide⟩

/-- 06 R116's table: (5, 95) with 10 codes, (23, 90) with 25 codes, (24, 0) with 3. -/
theorem test_text_examples :
    [(5, 95, 10), (23, 90, 25), (24, 0, 3)].map (fun p => (next (.text 1 p.1 p.2.1 (List.replicate p.2.2 0x41)) idle).map
      (fun t => (t.link.resp, t.comp.text.cells.map (fun c => c.1)))) =
    [some ([⟨0x51, 1, .ok, [0, 10]⟩], List.range' 595 10), some ([⟨0x51, 1, .clamped, [0, 10]⟩], List.range' 2390 10),
      some ([⟨0x51, 1, .range, []⟩], [])] := by decide +kernel

/-- CURSOR at the ends of its values and beyond, PANEL_MODE 2 and 3, ALARM 0, 1 and 2 with the flag OFF and ON. -/
theorem witness_CursorModeAlarmAndClearTakeEffect :
    (∀ a r c : Byte, takes (.cursor 1 a r c) idle idle ∧ takes (.panelMode 1 a) idle idle ∧ takes (.alarm 1 a) idle idle) ∧
      takes (.clearPersist 1) idle idle ∧ idle.panel.alarm = false ∧
      (let s := idle.withPanel { idle.panel with alarm := true }
       takes (.alarm 1 1) s s ∧ s.panel.alarm = true) ∧
      yesNo (1 : Byte).toNat = some true ∧ (23 : Byte).toNat ≤ 23 ∧ (99 : Byte).toNat ≤ 99 ∧ 1 < (2 : Byte).toNat ∧
      23 < (24 : Byte).toNat ∧ 99 < (100 : Byte).toNat ∧ Access.ofCode (2 : Byte).toNat = some .lockout ∧
      2 < (3 : Byte).toNat :=
  ⟨fun _ _ _ => ⟨takes_idle _ rfl, takes_idle _ rfl, takes_idle _ rfl⟩, takes_idle _ rfl, rfl,
    ⟨takes_here _ _ rfl rfl rfl rfl rfl, rfl⟩, by decide⟩

/-- LOAD_ACTION of a RECALL of slot 16, a STEP, and threshold 1; LOAD_LED and LED at the ends of their values and beyond. -/
theorem witness_PanelTablesLoad :
    (∀ (x m a s f r c t o : Byte) (st : BitVec 32), takes (.loadAction 1 x m a s f st r c t o) idle idle) ∧
      (∀ l s d c : Byte, takes (.loadLed 1 l s d c) idle idle ∧ takes (.led 1 l d) idle idle) ∧
      (103 ≤ 103 ∧ (catalogue 0x42).isSome = true ∧ (catalogue 0x07).isNone = true) ∧
      (31 : Byte).toNat ≤ 31 ∧ (9 : Byte).toNat ≤ 9 ∧ LedState.ofCode (3 : Byte).toNat = some .fast ∧
      (1 : Byte).toNat ≤ 1 ∧ 31 < (32 : Byte).toNat ∧ 9 < (10 : Byte).toNat ∧ 3 < (4 : Byte).toNat ∧
      1 < (2 : Byte).toNat :=
  ⟨fun _ _ _ _ _ _ _ _ _ _ => takes_idle _ rfl, fun _ _ _ _ => ⟨takes_idle _ rfl, takes_idle _ rfl⟩, by decide⟩

theorem witness_actions_allowed : actionAllowed 103 3 11 0 0x42 1 1 15 10 ∧ actionAllowed 0 3 5 16 0 0 0 0 2 ∧
    ¬actionAllowed 0 3 5 17 0 0 0 0 2 ∧ ¬actionAllowed 0 3 9 0 0x07 0 0 0 2 ∧ ¬actionAllowed 0 0 0 0 0 0 0 1 2 := by
  refine ⟨?_, ?_, ?_, ?_, ?_⟩ <;> unfold actionAllowed <;> decide

/-- 07 R142: LEDs of sources RUN, TRIG_WAIT, CH1, REMOTE and STORE_BUSY of a scan in READY, in LOCKOUT, with FAST OFF; and the
current in the dim state. -/
theorem test_leds :
    let leds : Table LedEntry := ⟨[LedSource.run, .trigWait, .chan .ch1, .remote, .storeBusy].zipIdx.map
      (fun p => (p.2, ⟨p.1, .off, .high⟩))⟩
    let s := { ready with
      panel := { ready.panel with leds := leds, access := .lockout }, comp := { ready.comp with fast := false } }
    (List.range 5).map s.ledLit = [true, true, true, false, false] ∧ s.ledCurrent 0 = .high ∧
      (s.withComp { s.comp with dim := true }).ledCurrent 0 = .low := by decide +kernel

/-- 01 R3: LOAD_CORR of CH4 on range 11, and a gain below 1024. -/
theorem test_load_corr :
    (next (.loadCorr 1 4 11 500 1024) idle).map (fun t => (t.sp.corr.cells, t.link.resp)) =
      some ([(47, ⟨500, 1024, true⟩)], [⟨0x10, 1, .ok, []⟩]) ∧
    (next (.loadCorr 1 4 11 500 1023) idle).map (fun t => (t.sp.corr.cells, t.link.resp)) =
      some ([], [⟨0x10, 1, .range, []⟩]) := by decide +kernel

/-! ## Witnesses: the front panel -/

/-- The block at a tick. -/
def atTick (n : Tick) (s : State) : State := s.withTrg { s.trg with tick := n }

/-- Scan 1 is due; keys with counts 0, 2 and 3. -/
def scanning : State :=
  atTick 2000000 (idle.withPanel { idle.panel with keys := ⟨[(1, ⟨false, 2, false⟩), (2, ⟨false, 3, false⟩), (95, ⟨true, 3, false⟩)]⟩ })

theorem witness_KeysAreDebounced :
    scanning.due scanning.panel.nextScan = true ∧ (6 : BitVec 96).getLsbD 0 = (scanning.panel.key 0).pressed ∧
      (6 : BitVec 96).getLsbD 1 ≠ (scanning.panel.key 1).pressed ∧ (scanning.panel.key 1).count < 3 ∧
      (6 : BitVec 96).getLsbD 95 ≠ (scanning.panel.key 95).pressed ∧ 3 ≤ (scanning.panel.key 95).count := by
  decide +kernel

/-- 07 R122: the fourth opposite reading in a row changes a key; the events come in ascending key code (R123). -/
theorem test_key_scan :
    (next (.keyScan 6) scanning).map (fun t => (t.panel.key 1, t.panel.key 2, t.panel.events)) =
      some (⟨false, 3, false⟩, ⟨true, 0, false⟩, [⟨.press, 2, 0⟩, ⟨.release, 95, 0⟩]) := by decide +kernel

/-- Sampling 1 and the end of window 1 are due; encoders without a reference and with one, of partial count 3, -3 and 0,
and detent counts at the ends. -/
def turning : State :=
  atTick 20000000 (idle.withPanel { idle.panel with
    encs := ⟨[(1, ⟨some (false, false), 3, 127⟩), (2, ⟨some (false, false), -3, -127⟩), (3, ⟨some (false, false), 2, 6⟩)]⟩,
    actions := ⟨[(99, ⟨.both, .adjust, none, some 0x42, some 1, false, false, 4, 5⟩)]⟩ })

theorem witness_EncodersTurn :
    turning.due turning.panel.nextEnc = true ∧ turning.due turning.panel.nextWindow = true ∧
      (turning.panel.enc 0).ref = none ∧ (turning.panel.enc 1).ref = some (false, false) ∧
      (turning.panel.enc 1).trans + 1 = 4 * 1 ∧ (turning.panel.enc 2).trans + -1 = 4 * -1 ∧
      (turning.panel.enc 3).trans + 1 ≠ 4 * 1 ∧ (turning.panel.enc 3).detents ≠ 0 := by decide +kernel

/-- 07 R126, R127: a fourth forward step is a detent, held at 127; a first sampling only sets the reference. -/
theorem test_encoder_sampling :
    (next (.encoderSampling 0x0F 0) turning).map (fun t => (t.panel.enc 0, t.panel.enc 1, t.panel.enc 2, t.panel.enc 3)) =
      some (⟨some (true, false), 0, 0⟩, ⟨some (true, false), 0, 127⟩, ⟨some (true, false), 1, -127⟩,
        ⟨some (true, false), 3, 6⟩) := by decide +kernel

/-- 07 R128: encoder 3, with T = 4 and F = 5, turns 6 detents into 30. -/
theorem test_window_end :
    (next .windowEnd turning).map (fun t => t.panel.events) =
      some [⟨.turn, 97, 127⟩, ⟨.turn, 98, -127⟩, ⟨.turn, 99, 30⟩] := by decide +kernel

/-- An event waits, under an entry of its control. -/
def offering (e : PanelEvent) (a : ActionEntry) (s : State) : State :=
  s.withPanel { s.panel with events := [e], actions := ⟨[(e.code, a)]⟩ }

/-- An entry of a mode and action without slot, field, repeat or click. -/
def entry (m : ActMode) (a : Action) : ActionEntry := ⟨m, a, none, none, none, false, false, 0, 2⟩

/-- A RECALL of slot n waits to be handled, LEVEL at +5, the Setup Store in an activity and slot 16 in a state. -/
def recalling (n : Nat) (x : Activity) (st : SlotState) : State :=
  (offering ⟨.press, 95, 0⟩ ⟨.both, .recall, some n, none, none, false, false, 0, 2⟩ (setW 0x42 5 idle)).withStore
    { idle.store.setSlot 16 ⟨st, []⟩ with activity := x }

/-- The command that brings an event. -/
def bringing (e : PanelEvent) : Instr :=
  match e.kind with
  | .press => .press e.code
  | .release => .release e.code
  | .repeat_ => .repeatKey e.code
  | .turn => .turn (e.code - 96) e.n

/-- Events of each kind at the ends of their ranges. -/
def someEvents : List PanelEvent :=
  [⟨.press, 95, 0⟩, ⟨.press, 0, 0⟩, ⟨.release, 0, 0⟩, ⟨.release, 95, 0⟩, ⟨.repeat_, 0, 0⟩, ⟨.repeat_, 95, 0⟩, ⟨.turn, 96, -127⟩,
    ⟨.turn, 103, 127⟩]

theorem someEvents_are : ∀ e ∈ someEvents, isEvent (bringing e) e := by
  simp [someEvents, isEvent, bringing]

theorem witness_ReportedEventsQueueOneReport :
    (∀ e ∈ someEvents, isEvent (bringing e) e) ∧
    (∀ m ∈ [ActMode.off, .report], ∀ e ∈ someEvents, ∀ b ∈ [true, false],
      let s := offering e ⟨m, .force, none, none, none, b, b, 0, 3⟩ idle
      s.panel.events = [e] ∧ s.panelReady = true ∧ s.comp.dim = false ∧ (s.panel.key e.code).consumed = false ∧
        (s.panel.action e.code).mode = m) ∧
    ∀ e ∈ [(⟨.release, 0, 0⟩ : PanelEvent), ⟨.repeat_, 95, 0⟩],
      let s := offering e (entry .report .force) (idle.withComp { idle.comp with dim := true })
      s.comp.dim = true ∧ s.panelReady = true ∧ (s.panel.key e.code).consumed = false :=
  ⟨someEvents_are, by decide +kernel, by decide +kernel⟩

/-- Events that call for no local action (07 R131): a RELEASE, a REPEAT whose action is not STEP, a PRESS under NONE, ADJUST and
TOGGLE of a field that is not two-valued, and a TURN whose action is not ADJUST. -/
def uncalled : List (PanelEvent × Action) :=
  [(⟨.release, 95, 0⟩, .runStop), (⟨.release, 95, 0⟩, .step), (⟨.repeat_, 95, 0⟩, .force), (⟨.repeat_, 95, 0⟩, .adjust),
    (⟨.press, 95, 0⟩, .none), (⟨.press, 95, 0⟩, .adjust), (⟨.press, 95, 0⟩, .toggle), (⟨.turn, 103, 127⟩, .force),
    (⟨.turn, 103, 127⟩, .step)]

/-- An entry of a mode and action over CH1.POS, which is not two-valued, with repeat and click. -/
def overPos (m : ActMode) (a : Action) : ActionEntry := ⟨m, a, none, some 0x12, some 1, true, true, 0, 3⟩

/-- The same under LOCAL and BOTH, in each access state. -/
theorem witness_uncalled_events_are_reported :
    ∀ x ∈ uncalled, ∀ m ∈ [ActMode.local, .both], ∀ access ∈ [Access.local, .remote, .lockout],
      let s₀ := offering x.1 (overPos m x.2) idle
      let s := s₀.withPanel { s₀.panel with access := access }
      s.panel.events = [x.1] ∧ s.panelReady = true ∧ s.comp.dim = false ∧ (s.panel.key x.1.code).consumed = false ∧
        (s.panel.action x.1.code).mode = m ∧ callsAction x.1 (s.panel.action x.1.code) = false ∧
        x.1 ∈ someEvents := by decide +kernel

/-- 07 R131, R132: such an event changes no field and queues its PANEL report of outcome NONE under BOTH, and none under LOCAL. -/
theorem test_uncalled_events :
    ∀ x ∈ uncalled,
      (next (bringing x.1) (offering x.1 (overPos .both x.2) idle)).map (fun t => (t.w.val 0x12, t.link.reports)) =
        some (0, [⟨false, .panel x.1 x.2 .none .ok⟩]) ∧
      (next (bringing x.1) (offering x.1 (overPos .local x.2) idle)).map (fun t => (t.w.val 0x12, t.link.reports)) =
        some (0, []) := by decide +kernel

/-- The RELEASE of a repeating key ends its repeat, and that of another key does not (07 R125). -/
theorem test_release_ends_own_repeat :
    ([20, 21].map (fun j =>
      let s := offering ⟨.release, 20, 0⟩ ⟨.report, .force, none, none, none, true, true, 0, 3⟩ idle
      (next (.release 20) (s.withPanel { s.panel with repeatKey := some (j, 9) })).map (fun t => t.panel.repeatKey))) =
      [some none, some (some (21, 9))] := by decide +kernel

/-- A PRESS under each mode but OFF, with repeat and click and without; a repeat key due under an entry that still repeats, that
does not and of mode OFF; the idle timer, a click and the alarm due. -/
theorem witness_PanelTimersRunAndExpire :
    (∀ m ∈ [ActMode.report, .local, .both], ∀ b ∈ [true, false],
      let s := offering ⟨.press, 20, 0⟩ ⟨m, .force, none, none, none, b, b, 0, 2⟩ idle
      s.panel.events = [⟨.press, 20, 0⟩] ∧ s.panelReady = true ∧ s.comp.dim = false ∧ (s.panel.action 20).mode = m) ∧
    (∀ p ∈ [(ActMode.report, true), (.report, false), (.off, true)],
      let s := (offering ⟨.press, 20, 0⟩ ⟨p.1, .force, none, none, none, p.2, false, 0, 2⟩ idle)
      let t := s.withPanel { s.panel with repeatKey := some (20, 0) }
      t.panel.repeatKey = some (20, 0) ∧ t.due 0 = true ∧ (t.panel.action 20).mode = p.1 ∧
        (t.panel.action 20).rep = p.2) ∧
    let s := idle.withPanel { idle.panel with idle := some 0, click := some 0, alarmEnd := some 0 }
    s.panel.idle = some 0 ∧ s.panel.click = some 0 ∧ s.panel.alarmEnd = some 0 ∧ s.comp.dim = false ∧
      s.due 0 = true := by decide +kernel

/-- Dim, with a PRESS, a TURN at either end, and the RELEASE of a consumed key. -/
theorem witness_WakesAreConsumed :
    let dim := idle.withComp { idle.comp with dim := true }
    dim.panelReady = true ∧ dim.comp.dim = true ∧
      (offering ⟨.press, 95, 0⟩ (entry .both .force) dim).panel.events = [⟨.press, 95, 0⟩] ∧
      (∀ n ∈ [(-127 : Int), 127], (offering ⟨.turn, 103, n⟩ (entry .both .force) dim).panel.events = [⟨.turn, 103, n⟩]) ∧
      ((dim.withPanel { dim.panel with keys := ⟨[(20, ⟨true, 0, true⟩)]⟩ }).panel.key 20).consumed = true := by
  decide +kernel

/-- 07 R140: a PRESS in the dim state wakes the panel, is marked consumed and queues WAKE alone. -/
theorem test_wake :
    (next (.press 95) (offering ⟨.press, 95, 0⟩ (entry .both .force) (idle.withComp { idle.comp with dim := true }))).map
      (fun t => (t.comp.dim, (t.panel.key 95).consumed, t.link.reports)) =
      some (false, true, [⟨false, .wake 95 .press⟩]) := by decide +kernel

/-- A two-valued field of class LIVE and one of class TRIG under TOGGLE; fields of each class under STEP and ADJUST, at a value
that changes and, at the end of the range, one that does not, TRG.AUTOTIME and DSP.IDLE among them; in STOPPED, while a segment
fills and where the auto timer has run for 20 ms; in either mode. -/
theorem witness_PanelChangesPlaceOneField :
    (∀ p ∈ [((⟨.press, 20, 0⟩ : PanelEvent), Action.toggle, 0x30), (⟨.press, 20, 0⟩, .toggle, 0x44),
        (⟨.press, 20, 0⟩, .step, 0x42), (⟨.repeat_, 20, 0⟩, .step, 0x12), (⟨.turn, 99, 127⟩, .adjust, 0x04),
        (⟨.turn, 99, -90⟩, .adjust, 0x0B), (⟨.press, 0, 0⟩, .step, 0x28)],
      ∀ mode ∈ [ActMode.local, .both], ∀ s₀ ∈ [idle, arming, atTick 20000000 (ready.withTrg { ready.trg with autoStart := some 0 })],
      let s := offering p.1 ⟨mode, p.2.1, none, some p.2.2, some 1, false, false, 4, 5⟩ s₀
      s.panel.events = [p.1] ∧ s.panelReady = true ∧ s.comp.dim = false ∧ s.panel.access = .local ∧
        (s.panel.action p.1.code).mode = mode ∧ (s.panel.action p.1.code).field = some p.2.2 ∧
        (catalogue p.2.2).isSome = true) ∧
    [0x30, 0x44, 0x42, 0x12, 0x04, 0x0B, 0x28].map (fun id => (catalogue id).map (fun f => f.cls)) =
      [some .live, some .trig, some .live, some (.draw [.ch1]), some .acq, some .live, some .live] ∧
    (∀ id ∈ [0x30, 0x44], (catalogue id).map (fun f => f.kind) = some (.enumerated 2)) ∧
    (catalogue 0x04).map (fun f => (steppedValue f.kind 50 127, steppedValue f.kind 100 127)) = some (100, 100) ∧
    arming.startCheck = none ∧ idle.startCheck ≠ none ∧ arming.acq.state ≠ .stopped ∧ idle.acq.state = .stopped := by
  decide +kernel

/-- 07 section 7.10: an ADJUST of n = 30 with step 1 takes LEVEL from +100 to +130, and the FIELD report stands before the
PANEL report. -/
theorem test_turn_adjusts :
    let a : ActionEntry := ⟨.both, .adjust, none, some 0x42, some 1, false, false, 4, 5⟩
    (next (.turn 3 30) (offering ⟨.turn, 99, 30⟩ a (setW 0x42 100 idle))).map (fun t => (t.w.val 0x42, t.link.reports)) =
      some (130, [⟨false, .field 0x42 130⟩, ⟨false, .panel ⟨.turn, 99, 30⟩ .adjust .taken .ok⟩]) := by decide +kernel

/-- 08 R156, 10 R197: a panel TOGGLE that turns the last channel OFF while a segment fills queues FIELD, PANEL and then the
RUNSTATE of its failed re-arm. -/
theorem test_panel_rearm_failed :
    let a : ActionEntry := ⟨.both, .toggle, none, some 0x10, none, false, false, 0, 2⟩
    (next (.press 20) (offering ⟨.press, 20, 0⟩ a arming)).map (fun t => (t.acq.run, t.link.reports)) =
      some (.stop, [⟨false, .field 0x10 0⟩, ⟨false, .panel ⟨.press, 20, 0⟩ .toggle .taken .ok⟩,
        ⟨false, .runstate .stop .stopped .rearmFailed .nochan⟩]) := by decide +kernel

/-- Each action in LOCAL under either mode, in STOP with the checks failed and passed, where a start recycles the buffer of a
stream, and in RUN and SINGLE; a RECALL of slots 0
and 16 in each activity it can be offered in, the slot EMPTY, DAMAGED and VALID. -/
theorem witness_PanelActionsAreTakenInLocal :
    (∀ a ∈ [Action.runStop, .single, .force, .clearPersist, .recall, .default, .undo, .localReturn],
      ∀ mode ∈ [ActMode.local, .both], ∀ s₀ ∈ [idle, loaded, recyclable, arming, arming.withAcq { arming.acq with run := .single }],
      let s := offering ⟨.press, 95, 0⟩ (entry mode a) s₀
      s.panel.events = [⟨.press, 95, 0⟩] ∧ s.panelReady = true ∧ s.comp.dim = false ∧ s.panel.access = .local ∧
        (s.panel.action 95).mode = mode ∧ (s.panel.action 95).action = a) ∧
    (∀ n ∈ [0, 16], ∀ x ∈ [Activity.idle, .reading, .writing], ∀ st ∈ [SlotState.empty, .damaged, .valid],
      let s := recalling n x st
      s.panel.events = [⟨.press, 95, 0⟩] ∧ s.panelReady = true ∧ s.panel.access = .local ∧ s.store.activity = x ∧
        (s.panel.action 95).slot.getD 0 = n ∧ (n = 16 → (s.store.slot n).state = st)) := by decide +kernel

/-- 07 R134, 09 R174: a panel RECALL of slot 0 places the default setup with its SETUP report; slot 16 EMPTY is refused; a VALID
slot is read; a write in flight refuses it BUSY. -/
theorem test_panel_recall :
    [recalling 0 .idle .empty, recalling 16 .idle .empty, recalling 16 .idle .valid, recalling 16 .writing .valid].map
      (fun s => (next (.press 95) s).map (fun t => (t.w.val 0x42, t.store.activity, t.link.reports))) =
    [some (0, .idle, [⟨false, .setup .recall (some 0)⟩, ⟨false, .panel ⟨.press, 95, 0⟩ .recall .taken .ok⟩]),
      some (5, .idle, [⟨false, .panel ⟨.press, 95, 0⟩ .recall .refused .empty⟩]), some (5, .reading, []),
      some (5, .writing, [⟨false, .panel ⟨.press, 95, 0⟩ .recall .refused .busy⟩])] := by decide +kernel

/-- 03 R46: RUN_STOP in STOP is refused with NOTLOADED, and with the entry loaded starts. -/
theorem test_run_stop :
    [idle, loaded].map (fun s => (next (.press 95) (offering ⟨.press, 95, 0⟩ (entry .both .runStop) s)).map
      (fun t => (t.acq.run, t.link.reports))) =
    [some (.stop, [⟨false, .panel ⟨.press, 95, 0⟩ .runStop .refused .notloaded⟩]),
      some (.run, [⟨false, .runstate .run .arming .panel .ok⟩, ⟨false, .panel ⟨.press, 95, 0⟩ .runStop .taken .ok⟩])] := by
  decide +kernel

/-- 03 R58, 11 R210: a panel start that recycles the buffer of a stream ends it with GONE: the fetched words are discarded, and its
grant is no longer wanted. -/
theorem test_panel_start_recycles :
    (next (.press 95) (offering ⟨.press, 95, 0⟩ (entry .local .runStop) recyclable)).map (fun t =>
      (t.acq.cur, t.pool.buf 0, t.smc.grant, t.readout)) =
      some (some 0, ⟨.filling, false, false, none⟩, some ⟨6, .readout ⟨0, 7000, 0, 10⟩ false⟩,
        ⟨none, [], [⟨1, 0, 0, .gone, false, []⟩]⟩) := by decide +kernel

/-- Events of each kind in REMOTE and LOCKOUT under either mode, with an action that each calls for and one that it does not;
LOCAL_RETURN is among them, and TOGGLE of a two-valued field and of another. -/
theorem witness_LockoutAndRemoteSuppressActions :
    (∀ e ∈ someEvents, isEvent (bringing e) e) ∧
    ∀ e ∈ someEvents, ∀ a ∈ [Action.force, .localReturn, .toggle, .step, .adjust], ∀ mode ∈ [ActMode.local, .both],
      ∀ access ∈ [Access.remote, .lockout], ∀ field ∈ [0x30, 0x12],
      let s₀ := offering e ⟨mode, a, none, some field, none, true, true, 0, 2⟩ idle
      let s := s₀.withPanel { s₀.panel with access := access }
      s.panel.events = [e] ∧ s.panelReady = true ∧ s.comp.dim = false ∧ (s.panel.key e.code).consumed = false ∧
        s.panel.access = access ∧ (s.panel.action e.code).mode = mode ∧ (s.panel.action e.code).action = a ∧
        (s.panel.action e.code).field = some field ∧ (next (bringing e) s).isSome = true :=
  ⟨someEvents_are, by decide +kernel⟩

/-- 07 R132, R136: FORCE is SUPPRESSED in REMOTE and LOCKOUT, and LOCAL_RETURN in LOCKOUT; in REMOTE it makes the panel LOCAL. -/
theorem test_suppressed :
    [(Action.force, Access.remote), (.force, .lockout), (.localReturn, .lockout), (.localReturn, .remote)].map (fun p =>
      let s := offering ⟨.press, 95, 0⟩ (entry .both p.1) idle
      (next (.press 95) (s.withPanel { s.panel with access := p.2 })).map (fun t => (t.panel.access, t.link.reports))) =
    [some (.remote, [⟨false, .panel ⟨.press, 95, 0⟩ .force .suppressed .ok⟩]),
      some (.lockout, [⟨false, .panel ⟨.press, 95, 0⟩ .force .suppressed .ok⟩]),
      some (.lockout, [⟨false, .panel ⟨.press, 95, 0⟩ .localReturn .suppressed .ok⟩]),
      some (.local, [⟨false, .panel ⟨.press, 95, 0⟩ .localReturn .taken .ok⟩])] := by decide +kernel

/-! ## Witnesses: setups and the Setup Store -/

theorem witness_FieldValuesFollowTheirKind :
    (-400 : Int) ≤ 400 ∧ (-401 : Int) < -400 ∧ (400 : Int) < 401 ∧ ([2, 4, 8] : List Int)[2]? = some 8 ∧ 0 < 2 := by decide

/-- 08 section 8.8: offered 3 for ACQ.DECIM is snapped to 5; +450 for CH2.POS and 0 for DSP.DECAY are clamped. -/
theorem test_stored_values :
    [(0x02, 3), (0x16, 450), (0x21, 0), (0x23, 7)].map (fun p => (catalogue p.1).bind (fun f => storedValue f.kind p.2)) =
      [some 5, some 400, some 1, none] := by decide +kernel

/-- Fields of each class, at a value stored as offered and at one clamped; TRG.AUTOTIME where the auto timer has run 100 ms and
where it has not; an id outside the catalogue; an enumerated value outside its names; before power-on recall ends and
after. -/
theorem witness_SetFieldStoresOneField :
    (∀ (f : Byte) (v : BitVec 64), takes (.setField 1 f v) idle idle ∧ takes (.setField 1 f v) starting starting) ∧
      idle.reportsCoalesced ∧ starting.recalling = true ∧ idle.recalling = false ∧
      (catalogue (0x12 : Byte).toNat).map (fun f => storedValue f.kind (450 : BitVec 64).toInt) = some (some 400) ∧
      [0x42, 0x28, 0x44, 0x12, 0x04].map (fun id => (catalogue id).map (fun f => f.cls)) =
        [some .live, some .live, some .trig, some (.draw [.ch1]), some .acq] ∧
      (∀ n ∈ [50000000, 50000001], let s := idle.withTrg { idle.trg with tick := ticks n, autoStart := some 0 }
        s.trg.autoStart = some 0 ∧
          (millis 50).toNat - (s.lastTick - 0).toNat = (if n = 50000000 then 1 else 0)) ∧
      catalogue (0x07 : Byte).toNat = none ∧
      (catalogue (0x23 : Byte).toNat).map (fun f => storedValue f.kind (4 : BitVec 64).toInt) = some none :=
  ⟨fun _ _ => ⟨takes_idle _ rfl, takes_starting _ rfl⟩, ⟨Nat.zero_le 1, Nat.zero_le 1, fun _ => Nat.zero_le 1⟩,
    by decide +kernel⟩

/-- 08 R149, 07 R138: SET_FIELD of CH1.POS to 450 stores 400, is answered CLAMPED, and makes the panel REMOTE. -/
theorem test_set_field :
    (next (.setField 1 0x12 450) idle).map (fun t => (t.w.val 0x12, t.panel.access, t.link.resp)) =
      some (400, .remote, [⟨0x20, 1, .clamped, [0x12, 0, 0, 0, 0, 0, 0, 1, 0x90]⟩]) := by decide +kernel

/-- 02 R32: TRG.AUTOTIME of 50 ms reaches an auto timer that has run for 50 ms, not one that has run a tick less; 02 R37: a
change of a stage's COND starts an enabled sequencer afresh; 05 R94: one of CH2.POS clears CH2's plane alone; 10 R194: a waiting
FIELD report takes the new value. -/
theorem test_announcements :
    ([(50000000 : Tick), 50000001].map (fun n => (next (.setField 1 0x0B 50) (ready.withTrg
      { ready.trg with tick := n, autoStart := some 0 })).map (fun t => (t.trg.autoStart, t.trg.autoPending)))) =
        [some (some 0, false), some (none, true)] ∧
      (next (.setField 1 0x41 1) (ready2.withTrg { ready2.trg with stage := 1, timeout := some 9 })).map
        (fun t => (t.trg.stage, t.trg.timeout)) = some (0, none) ∧
      (next (.setField 1 0x16 9) (idle.withPlanes (PerCh.const ⟨[(3, 8)]⟩))).map
        (fun t => [t.cell .ch1 0 3, t.cell .ch2 0 3]) = some [8, 0] ∧
      (next (.setField 1 0x42 9) (idle.withLink { idle.link with reports := [⟨true, .field 0x42 1⟩, ⟨false, .field 0x12 2⟩] })).map
        (fun t => t.link.reports) = some [⟨true, .field 0x42 9⟩, ⟨false, .field 0x12 2⟩] := by decide +kernel

/-- Stage 7 with values within their ranges, a change of LEVEL alone and of another field, stage 8, and a SRC outside its
names. -/
theorem witness_SetStageStoresEightFields :
    (∀ (st : Byte) (v : BitVec 64), takes (.setStage 1 st v 0 0 1 0 1 0 0) idle idle ∧
      takes (.setStage 1 st v 0 0 1 0 1 0 0) starting starting) ∧
      idle.reportsCoalesced ∧ (7 : Byte).toNat ≤ 7 ∧ 7 < (8 : Byte).toNat ∧
      (∀ k < 8, (storedValue (stageField k).kind ([(4 : Int), 0, 0, 1, 0, 1, 0, 0].getD k 0)).isSome = true) ∧
      (∃ k < 8, k ≠ 2 ∧ ([4, 0, 0, 1, 0, 1, 0, 0] : List Int).getD k 0 ≠ idle.w.val (0x40 + 8 * 7 + k)) ∧
      storedValue (stageField 0).kind 5 = none :=
  ⟨fun _ _ => ⟨takes_idle _ rfl, takes_starting _ rfl⟩, ⟨Nat.zero_le 1, Nat.zero_le 1, fun _ => Nat.zero_le 1⟩,
    by decide +kernel⟩

/-- A LOAD_SETUP of 102 values in range, and one whose enumerated values are outside their names; UNDO and DEFAULT that change a
field of each class, in STOPPED and while a segment fills. -/
theorem witness_WholeSetupsMoveTheWorkingSetup :
    (∀ v : BitVec 64, takes (.loadSetup 1 (List.replicate 102 v)) idle idle ∧
      takes (.loadSetup 1 (List.replicate 102 v)) starting starting) ∧
      (∀ k < 102, ((catalogue (fieldIds.getD k 0)).bind (fun f => storedValue f.kind
        ((List.replicate 102 (0 : BitVec 64)).map BitVec.toInt)[k]!)).isSome = true) ∧
      (∃ k < 102, ((catalogue (fieldIds.getD k 0)).map (fun f => storedValue f.kind 7)) = some none) ∧
      (∀ (id : Nat) (v : Int), let s := arming.withSetup ⟨arming.w, arming.w.put id v⟩
        takes (.undo 1) s s ∧ takes (.undo 1) (setW id v idle) (setW id v idle) ∧
          takes (.defaultSetup 1) (setW id v arming) (setW id v arming)) ∧
      (∀ p ∈ [(0x42, (5 : Int)), (0x28, 0), (0x44, 1), (0x12, 9), (0x02, 2), (0x06, 2), (0x10, 0)],
        (arming.w.put p.1 p.2).val p.1 ≠ arming.w.val p.1) ∧
      takes (.undo 1) starting starting ∧ takes (.defaultSetup 1) starting starting :=
  ⟨fun _ => ⟨takes_here _ _ rfl rfl rfl rfl rfl, takes_here _ _ rfl rfl rfl rfl rfl⟩, by decide +kernel,
    ⟨0, by decide, by decide +kernel⟩,
    fun _ _ => ⟨takes_here _ _ rfl rfl rfl rfl rfl, takes_here _ _ rfl rfl rfl rfl rfl, takes_here _ _ rfl rfl rfl rfl rfl⟩,
    by decide +kernel, takes_starting _ rfl, takes_starting _ rfl⟩

/-- 08 R161: UNDO exchanges the setups. -/
theorem test_undo :
    (next (.undo 1) (setW 0x42 120 idle)).map (fun t => (t.w.val 0x42, t.setup.shadow.val 0x42, t.panel.access)) =
      some (0, 120, .remote) := by decide +kernel

/-- 08 R156, 02 R37, 07 R139: an UNDO that changes a stage's COND and DSP.IDLE starts an enabled sequencer afresh and restarts
the idle timer from the change. -/
theorem test_undo_announces :
    let s := ready.withSetup ⟨ready.w, (ready.w.put 0x41 1).put 0x28 2⟩
    (next (.undo 1) ((s.withTrg { s.trg with tick := 9, timeout := some 20 }).withPanel { s.panel with idle := some 5 })).map
      (fun t => (t.trg.timeout, t.trg.meas, t.panel.idle, t.panel.access)) =
      some (none, some ⟨none, 0, 8⟩, some 120000000008, .remote) := by decide +kernel

/-- A change of ACQ.DECIM, of ACQ.BUFFERS and of CH1.ENABLE, in STOPPED and while a segment fills, with the start checks passed
and failed; pools that agree, with a NEW buffer and with one DRAWING. -/
theorem witness_AcqChangesDiscardThePicture :
    (∀ v : BitVec 64, takes (.setField 1 0x02 v) pictured pictured ∧ takes (.setField 1 0x02 v) crowded crowded ∧
      takes (.setField 1 0x06 v) arming arming ∧ takes (.setField 1 0x10 v) arming arming) ∧
      pictured.poolAgrees = true ∧ crowded.poolAgrees = true ∧ arming.poolAgrees = true ∧
      (∀ s ∈ [pictured, crowded, arming], s.recalling = false) ∧
      (∀ p ∈ [((0x02 : Byte), (2 : Int)), (0x06, 8), (0x10, 0)],
        (catalogue p.1.toNat).map (fun f => (f.cls, storedValue f.kind p.2)) = some (.acq, some p.2) ∧
          p.2 ≠ crowded.w.val p.1.toNat ∧ p.2 ≠ arming.w.val p.1.toNat) ∧
      pictured.acq.state = .stopped ∧ arming.acq.state ≠ .stopped :=
  ⟨fun _ => ⟨takes_here _ _ rfl rfl rfl rfl rfl, takes_here _ _ rfl rfl rfl rfl rfl, takes_here _ _ rfl rfl rfl rfl rfl,
    takes_here _ _ rfl rfl rfl rfl rfl⟩, by decide +kernel⟩

/-- 03 R61: the last enabled channel turned OFF stops acquisition with a REARM_FAILED report carrying NOCHAN. -/
theorem test_rearm_failed :
    (next (.setField 1 0x10 0) arming).map (fun t => (t.acq.run, t.acq.state, t.link.reports)) =
      some (.stop, .stopped, [⟨false, .runstate .stop .stopped .rearmFailed .nochan⟩]) := by decide +kernel

/-- 03 R61, R63: a change of ACQ.DECIM marks the NEW buffer stale, takes the drawn one from the Rasterizer unmarked, and re-arms
the filling set. -/
theorem test_acq_change :
    [pictured, crowded, arming].map (fun s => (next (.setField 1 0x02 2) s).map (fun t =>
      ([0, 1].map (fun b => ((t.pool.buf b).state, (t.pool.buf b).stale)), t.pool.completion, t.acq.state))) =
    [some ([(.shown, true), (.free, false)], [0], .stopped), some ([(.shown, false), (.shown, false)], [0, 1], .stopped),
      some ([(.filling, false), (.free, false)], [], .arming)] := by decide +kernel

/-- The Setup Store in an activity. -/
def storeIn (a : Activity) : State := idle.withStore { idle.store with activity := a }

theorem takes_storeIn (a : Activity) (i : Instr) (hw : i.wf = true) (hd : (storeIn a).decoderFree = true) :
    takes i (storeIn a) (storeIn a) := takes_here i _ hw rfl rfl rfl hd

/-- SAVE, ERASE and SET_POWERON in each activity; slots 0, 1, 16 and 17; names of characters within and outside. -/
theorem witness_StoreWritesBeginInIdle :
    (∀ a ∈ [Activity.idle, .reading, .writing, .starting], ∀ slot : Byte,
      takes (.save 1 slot (List.replicate 16 0x20)) (storeIn a) (storeIn a) ∧ takes (.erase 1 slot) (storeIn a) (storeIn a) ∧
        takes (.setPoweron 1 slot) (storeIn a) (storeIn a) ∧ (storeIn a).store.activity = a) ∧
      16 < (17 : Byte).toNat ∧ (0 : Byte).toNat = 0 ∧ ¬(16 < (16 : Byte).toNat ∨ (16 : Byte).toNat = 0) ∧
      (List.replicate 16 (0x7F : Byte)).all nameChar = false ∧ (List.replicate 16 (0x20 : Byte)).all nameChar = true := by
  refine ⟨fun a ha slot => ?_, by decide, by decide, by decide, by decide, by decide⟩
  simp only [List.mem_cons, List.not_mem_nil, or_false] at ha
  obtain rfl | rfl | rfl | rfl := ha <;>
    exact ⟨takes_storeIn _ _ rfl rfl, takes_storeIn _ _ rfl rfl, takes_storeIn _ _ rfl rfl, rfl⟩

/-- A write in flight in a phase, its limit timer due. -/
def writing (op : StoreOp) (p : StorePhase) : State :=
  idle.withStore { idle.store with
    activity := .writing, write := some ⟨op, 16, Setup.default, List.replicate 16 0x41, 3, p, 0, false⟩ }

theorem witness_WritesPassTheirPhases :
    ∀ op ∈ [StoreOp.save, .erase, .setPoweron], ∀ p ∈ [StorePhase.erase, .program, .verify],
      let s := writing op p
      upsetWf [(17407, 1)] = true ∧ s.store.activity = .writing ∧
        s.store.write = some ⟨op, 16, Setup.default, List.replicate 16 0x41, 3, p, 0, false⟩ ∧ 1 ≤ 16 ∧ s.due 0 = true := by
  decide +kernel

/-- 09 R170: VERIFY of an ERASE over erased flash leaves the slot EMPTY with a STORE report of OK; the limit timer's
expiry leaves it DAMAGED (R172). -/
theorem test_write_ends :
    [Instr.flashVerifyEnd [], .limitTimerExpiry []].map (fun i => (next i (writing .erase .verify)).map (fun t =>
      ((t.store.slot 16).state, t.store.activity, t.link.reports))) =
    [some (.empty, .idle, [⟨false, .storeSlot .erase 16 3 true .empty false⟩]),
      some (.damaged, .idle, [⟨false, .storeSlot .erase 16 3 false .damaged false⟩])] := by decide +kernel

/-- RECALL in each activity; slots 0, 1, 16 and 17; slots EMPTY, DAMAGED and VALID. -/
theorem witness_HostRecallsAreDecidedAndPlaced :
    (∀ a ∈ [Activity.idle, .reading, .writing, .starting], ∀ slot : Byte,
      takes (.recall 1 slot) (storeIn a) (storeIn a)) ∧
      (idle.store.slot 1).state = .empty ∧
      (∀ st ∈ [SlotState.damaged, .valid], takes (.recall 1 16) (idle.withStore (idle.store.setSlot 16 ⟨st, []⟩))
        (idle.withStore (idle.store.setSlot 16 ⟨st, []⟩)) ∧ ((idle.store.setSlot 16 ⟨st, []⟩).slot 16).state = st) := by
  refine ⟨fun a ha slot => ?_, rfl, fun st hst => ?_⟩
  · simp only [List.mem_cons, List.not_mem_nil, or_false] at ha
    obtain rfl | rfl | rfl | rfl := ha <;> exact takes_storeIn _ _ rfl rfl
  · simp only [List.mem_cons, List.not_mem_nil, or_false] at hst
    obtain rfl | rfl := hst <;> exact ⟨takes_here _ _ rfl rfl rfl rfl rfl, rfl⟩

/-- What a SAVE of the default setup with LEVEL = +100 programs, but for its check. -/
def body : List Byte := setupBytes (Setup.default.put 0x42 100) ++ List.replicate 16 0x41

/-- The flash that it leaves. -/
def saved : Table Byte := programSector Table.empty 1 (body ++ checkBytes body)

/-- A read of slot 1 for a host RECALL, over the flash that the SAVE leaves. -/
def reading : State :=
  { idle with
    flash := saved,
    store := { idle.store with activity := .reading, reading := some ⟨1, false⟩ },
    link := { idle.link with waiting := some (.recall 9 1) } }

/-- The same for a panel RECALL. -/
def panelReading : State :=
  { idle with
    flash := saved,
    store := { idle.store with activity := .reading, reading := some ⟨1, true⟩ },
    panel := { idle.panel with offered := some ⟨⟨.press, 95, 0⟩, .both, .recall, 1⟩ } }

theorem body_length : body.length = 832 := by decide +kernel

theorem slot_reads (f : Table Byte) (n : Nat) (bs : List Byte) (h : bs.length = 836) :
    slotBytes (programSector f n bs) n = bs := by
  unfold slotBytes readSector programSector
  rw [← h]
  exact Table.getRun_setRun _ _ _ _

/-- The read finds what was programmed. -/
theorem saved_slot : slotBytes saved 1 = body ++ checkBytes body := by
  rw [saved, slot_reads]
  rw [List.length_append, body_length]
  rfl

theorem reading_valid : classifySlot (body ++ checkBytes body) = .valid := by
  have ht : (body ++ checkBytes body).take 832 = body := by rw [← body_length, List.take_left']; rfl
  have hd : (body ++ checkBytes body).drop 832 = checkBytes body := by rw [← body_length, List.drop_left']; rfl
  have hn : (((body ++ checkBytes body).drop 816).take 16).all nameChar = true := by decide +kernel
  have hf : (body ++ checkBytes body).all (fun b => b == 0xFF) = false := by decide +kernel
  unfold classifySlot
  rw [hf, ht, hd, hn]
  simp

/-- A RECALL, the host's and the panel's, of a VALID slot whose record places LEVEL = +100 with nothing clamped; of an erased
slot. -/
theorem witness_recall_read : reading.store.activity = .reading ∧
    reading.store.reading = some ⟨(1 : Byte).toNat, false⟩ ∧ reading.link.waiting = some (.recall 9 1) ∧
    reading.store.heldPanel = false ∧
    (let s := panelReading
     s.store.activity = .reading ∧ s.store.reading = some ⟨1, true⟩ ∧ s.link.waiting = none ∧ s.flash = reading.flash ∧
      s.panel.offered = some ⟨⟨.press, 95, 0⟩, .both, .recall, 1⟩) ∧
    (readPlacement reading.flash 1).map (fun p => (p.1.val 0x42, p.2)) = some (100, 0) ∧
    (readPlacement idle.flash 2).isNone = true := by
  refine ⟨rfl, rfl, rfl, rfl, ⟨rfl, rfl, rfl, by simp only [panelReading, reading], rfl⟩, ?_, by decide +kernel⟩
  simp only [reading, readPlacement, saved_slot, reading_valid]
  decide +kernel

/-- Power-on recall over erased flash, with no request held and with a SLOT_INFO held on an idle lane. -/
theorem witness_PowerOnRecallPlacesTheNamedSlot :
    upsetWf [(17407, 1)] = true ∧ starting.store.activity = .starting ∧ starting.link.waiting = none ∧
      starting.acq.state = .stopped ∧
      let s := starting.withLink { starting.link with waiting := some (.slotInfo 7) }
      s.link.waiting = some (.slotInfo 7) ∧ s.store.deferred = [] ∧ s.link.lane = none ∧ s.link.resp = [] ∧
        s.link.reports = [] := by decide

/-- A start with another DSP.IDLE and other ACQ.BUFFERS in the working setup, a NEW buffer, and a lit cell. -/
def startingOver : State :=
  setW 0x28 0 (setW 0x06 2 { starting with
    trg := { starting.trg with tick := 8 },
    panel := { starting.panel with idle := none },
    pool := { pictured.pool with count := 2 },
    planes := starting.planes.set .ch2 ⟨[(cellKey 3 7, 250)]⟩ })

/-- 03 R63, R64, 07 R139, 08 R156: the placement of the default setup there rebuilds the pool, clears the planes and starts the
idle timer; the witness's hypotheses hold. -/
theorem test_power_on_placement :
    startingOver.store.activity = .starting ∧ startingOver.link.waiting = none ∧ startingOver.acq.state = .stopped ∧
    startingOver.poolAgrees = true ∧
    (next (.powerOnRecallEnd []) startingOver).map (fun t =>
      ((t.pool.count, t.pool.completion, (t.pool.buf 0).state), (t.cell .ch2 3 7, t.panel.idle), t.acq.state)) =
      some ((4, [], .free), (0, some 600000000007), .stopped) := by decide +kernel

/-- 09 R179, R180: over erased flash the default setup is placed, and FALLBACK is clear. -/
theorem test_power_on_recall :
    (next (.powerOnRecallEnd []) (setW 0x42 5 starting)).map (fun t => (t.w.val 0x42, t.store.activity, t.link.reports)) =
      some (0, .idle, [⟨false, .powerup .powerOn 0 0 false .erased 0⟩]) := by decide +kernel

/-- 10 R197, section 10.9: on an idle lane POWERUP is sent before the response to a request held meanwhile. -/
theorem test_powerup_first :
    (next (.powerOnRecallEnd []) (starting.withLink { starting.link with waiting := some (.stop 7) })).map (fun t =>
      (t.link.lane.map (fun x => (x.bytes.take 1, (x.bytes.drop 4).take 1)), t.link.reports, t.link.resp)) =
      some (some ([0x81], [8]), [], [⟨0x32, 7, .ok, []⟩]) := by decide +kernel

/-- A header that names slot 16 is GOOD, and one whose check fails BAD. -/
theorem test_header : classifyHeader ([16] ++ checkBytes [16]) = ⟨16, .good⟩ ∧
    classifyHeader ([16] ++ checkBytes [15]) = ⟨0, .bad⟩ := by decide +kernel

/-! ## Witnesses: the host link -/

/-- A frame of which bytes have arrived. -/
def receiving (bs : List Byte) : State := idle.withLink { idle.link with framer := .receiving bs }

/-- No control symbol's word is 0, whatever codes are chosen. -/
theorem control_not_zero (rd : Bool) (x : LaneSymbol) (h : ∀ b, x ≠ .data b) : symbolWord rd x ≠ 0 := by
  have key : ∀ (i : Fin 3) (j : Fin 2) (k : Fin 10) (rd : Bool), ∀ x ∈ [LaneSymbol.idle, .sof, .eof],
      (if rd then ~~~(chosenCode i j k x) else chosenCode i j k x) ≠ 0 := by decide +kernel
  cases x with
  | data b => exact absurd rfl (h b)
  | idle => exact key _ _ _ rd .idle (by decide)
  | sof => exact key _ _ _ rd .sof (by decide)
  | eof => exact key _ _ _ rd .eof (by decide)

/-- The word 0 is no symbol. -/
theorem word_zero : wordSymbol false 0 = none := by
  have hd : wordData false 0 = none := by decide +kernel
  unfold wordSymbol
  rw [hd]
  refine List.find?_eq_none.mpr fun x hx => ?_
  have hne : ∀ b, x ≠ .data b := by
    rintro b rfl
    simp at hx
  simpa only [decide_eq_true_eq] using control_not_zero false x hne

/-- Words that are no symbol, a control symbol of each kind and a data byte; a framer that waits and one with 2053 and 2054
bytes; frames good and not; FIFOs of 7 and 8 frames; a receiver without alignment. -/
theorem witness_TheFramerAnswersEachFrame :
    wordSymbol false 0 = none ∧ (∀ d, symbolWord d .idle ≠ 0 ∧ symbolWord d .sof ≠ 0) ∧
      (∀ (rd : Bool) (x : LaneSymbol), wordSymbol rd (symbolWord rd x) = some x) ∧
      goodFrame (frameBytes 0x43 7 [3]) = some ⟨0x43, 7, [3]⟩ ∧ goodFrame [] = none ∧
      idle.link.aligned = true ∧ idle.link.framer = .waiting ∧ idle.link.rxDisparity = false ∧
      (receiving [1]).link.framer = .receiving [1] ∧
      ((List.replicate 2053 (0 : Byte)).length < 2054 ∧ 2054 ≤ (List.replicate 2054 (0 : Byte)).length) ∧
      idle.link.resp.length + idle.reservedPlaces < 16 ∧ idle.link.fifo.length < 8 ∧
      State.reset.link.aligned = false ∧ State.reset.link.framer = .waiting :=
  ⟨word_zero, fun d => ⟨control_not_zero d .idle (fun _ => nofun), control_not_zero d .sof (fun _ => nofun)⟩,
    wordSymbol_symbolWord, by decide +kernel⟩

/-- 10 R184 to R188: at EOF a ninth frame is answered FULL under its own tag, and a bad one LINKERR under tag 0; IDLE in a frame
abandons it. -/
theorem test_framer :
    (next (.frameReceived [symbolWord false .eof]) ((receiving (frameBytes 0x43 7 [3])).withLink
      { (receiving (frameBytes 0x43 7 [3])).link with fifo := List.replicate 8 ⟨1, 0, []⟩ })).map (fun t => t.link.resp) =
        some [⟨0x43, 7, .full, []⟩] ∧
    (next (.frameReceived [symbolWord false .eof]) (receiving [1, 2, 3])).map (fun t => t.link.resp) =
      some [⟨0, 0, .linkerr, []⟩] ∧
    (next (.frameAbandoned [symbolWord false .idle]) (receiving [1])).map (fun t => (t.link.framer, t.link.resp)) =
      some (.waiting, [⟨0, 0, .linkerr, []⟩]) := by
  refine ⟨?_, ?_, ?_⟩ <;>
    simp only [next, exec, execFrameReceived, execFrameAbandoned, laneRow, State.takeWords, State.takeWord, receiving,
      State.withLink, idle, Link.reset, if_true, wordSymbol_symbolWord] <;> decide +kernel

/-- The standard code's D0.0, D21.5 and D31.7 at each disparity, and what follows: D0.0 and D21.5 are balanced, D31.7 is not
(log 36). A frame's bytes arrive word by word. -/
theorem test_lane_code :
    ([0x00, 0xB5, 0xFF].map (fun b : Byte => (dataWord false b, dataWord true b))) =
        [(0b1001110100, 0b0110001011), (0b1010101010, 0b1010101010), (0b1010110001, 0b0101001110)] ∧
      disparityAfter false (dataWord false 0x00) = false ∧ disparityAfter false (0b1010110001#10) = false ∧
      (next (.frameReceived [dataWord false 0x00, dataWord false 0xB5]) (receiving [])).map (fun t => t.link.framer) =
        some (.receiving [0x00, 0xB5]) := by decide +kernel

/-- 10 R184: a code error in a frame abandons it and loses the alignment. -/
theorem test_code_error :
    (next (.frameAbandoned [0]) (receiving [1])).map (fun t => (t.link.framer, t.link.aligned, t.link.resp)) =
      some (.waiting, false, [⟨0, 0, .linkerr, []⟩]) := by
  simp only [next, exec, execFrameAbandoned, laneRow, State.takeWords, State.takeWord, receiving, State.withLink, idle,
    Link.reset, if_true, word_zero]
  decide +kernel

/-- Queues of 31 and 32 reports; FIELD and RUNSTATE reports that wait behind another, and none; a lane that is idle with a
response, a report or a DATA frame alone to send, before the instant's sample and after it; a deferred RESET due; a frame in
transmission, before its SOF, at its first symbol and its last, that ends. -/
theorem witness_ReportsEnterAndTheLaneTakesResponsesFirst :
    let reports := fun n => List.replicate n (⟨false, .wake 0 .press⟩ : Report)
    let x : Tx := ⟨List.replicate 8 0, false, 88⟩
    ((reports 31).length < 32 ∧ 32 ≤ (reports 32).length) ∧
      (∀ r ∈ reports 1, r.body.isFieldOf 0x42 = false ∧ r.body.isRunstate = false) ∧
      (ReportBody.runstate .stop .stopped .panel .ok).isRunstate = true ∧
      (∀ b ∈ [true, false], (idle.withTrg { idle.trg with begun := b }).trg.begun = b) ∧
      (idle.withStore { idle.store with deferred := [3] }).resetDue = true ∧ idle.resetDue = false ∧
      idle.link.lane = none ∧ (idle.withLink { idle.link with resp := [⟨1, 2, .ok, []⟩] }).link.resp = [⟨1, 2, .ok, []⟩] ∧
      (idle.withLink { idle.link with reports := reports 1 }).link.reports = [⟨false, .wake 0 .press⟩] ∧
      idle.link.resp = [] ∧ idle.link.reports = [] ∧
      (idle.withReadout { Readout.reset with frames := [⟨1, 0, 10, .complete, false, []⟩] }).readout.frames =
        [⟨1, 0, 10, .complete, false, []⟩] ∧
      (idle.withLink { idle.link with lane := some x }).link.lane = some x ∧ x.bytes.length ≤ 2054 ∧
      (∀ p ∈ [((1 : Tick), 0), (81, 10)], ((p.1 - 1) - (x.ends - BitVec.ofNat 48 (8 * 11))).toNat / 8 = p.2) ∧
      (∀ k ∈ [1, 7], x.ends - BitVec.ofNat 48 (8 * 11) = (0 - BitVec.ofNat 48 k) + BitVec.ofNat 48 k) ∧
      (atTick 88 idle).due x.ends = true := by decide +kernel

/-- 12 R215, R216: a RESP frame of no data, whose payload of 2 bytes occupies the lane for 11 x 8 ticks; 10 R183: from the end of
the IDLE in progress, on a lane that has sent IDLE from tick 0. -/
theorem test_transmission :
    [101, 105, 106].map (fun n => (next .transmissionStart (atTick n
      (idle.withLink { idle.link with idleFrom := 0, resp := [⟨0x30, 7, .ok, []⟩] }))).map (fun t =>
        t.link.lane.map (fun x => (x.bytes.take 6, x.bytes.length, x.begins, x.ends)))) =
      [some (some ([0x80, 7, 0, 2, 0x30, 0], 8, 104, 192)), some (some ([0x80, 7, 0, 2, 0x30, 0], 8, 104, 192)),
        some (some ([0x80, 7, 0, 2, 0x30, 0], 8, 112, 200))] := by decide +kernel

/-- 09 R177, 10 R191: where a deferred RESET is due, the lane takes nothing before it. 10 R183: in a frame's transmission its
first byte's word follows that of SOF after 8 ticks. -/
theorem test_lane_holds :
    (next .transmissionStart ((storeIn .idle).withLink { idle.link with reports := [⟨false, .wake 0 .press⟩] } |>.withStore
      { (storeIn .idle).store with deferred := [3] })).map (fun t => (t.link.lane, t.link.reports.length)) =
      some (none, 1) ∧
    (atTick 9 (idle.withLink { idle.link with lane := some ⟨[0xB5], false, 32⟩ })).laneWord = dataWord false 0xB5 := by
  refine ⟨by decide +kernel, ?_⟩
  have h : ∀ rd, dataWord rd 0xB5 = dataWord false 0xB5 := by decide
  exact h (disparityAfter false (symbolWord false .sof))

/-- 10 R183: the IDLE symbols of a lane idle for more than half a lap of the tick counter, and over its end. -/
theorem test_idle_goes_on :
    (atTick 140737488355345 (idle.withLink { idle.link with idleFrom := 0 })).symbolsSince 0 = 17592186044418 ∧
      (atTick 9 (idle.withLink { idle.link with idleFrom := 0 })).symbolsSince (0 - 8) = 2 := by decide +kernel

/-- 10 R183, R199: at a RESET taken at the end of a frame, before the sample of that tick, the lane has sent no IDLE yet. -/
theorem test_reset_at_a_frame_end :
    let s := atTick 40 (idle.withLink { idle.link with lane := some ⟨[1], false, 40⟩ })
    ((next .transmissionEnd s).bind (next (.reset 9))).map (fun t => (t.trg.begun, t.symbolsSince t.link.idleFrom)) =
      some (true, 0) := by decide +kernel

theorem witness_StatusAnswersTheStateItFinds :
    takes (.status 1) idle idle ∧ idle.ras.drawing = none ∧ takes (.status 1) drawing drawing ∧
      drawing.ras.drawing = some ⟨0, 0, 0, 698, 699, 698, 0, [], some 210⟩ ∧
      (drawing.pool.buf 0).desc.map (fun d => d.values.chans[0]?) = some (some (.ch1, 6)) :=
  ⟨takes_idle _ rfl, rfl, takes_here _ _ rfl rfl rfl rfl rfl, rfl, by decide +kernel⟩

/-- Ids within and outside the catalogue, selectors 0, 1 and 2, SLOT_INFO in each activity, buffers at B, FREE and NEW,
segments at the ends of their range. -/
theorem witness_QueriesChangeNothing :
    (∀ a : Byte, takes (.getField 1 a) idle idle ∧ takes (.getSetup 1 a) idle idle) ∧
      (∀ a ∈ [Activity.idle, .reading, .writing, .starting], takes (.slotInfo 1) (storeIn a) (storeIn a)) ∧
      takes (.buffers 1) pictured pictured ∧
      (∀ (b : Byte) (f c : BitVec 16), takes (.describe 1 b) pictured pictured ∧
        takes (.segments 1 b f c) pictured pictured) ∧
      (catalogue (0x7F : Byte).toNat).isSome = true ∧ catalogue (0x80 : Byte).toNat = none ∧
      pictured.pool.completion.length ≤ 8 ∧ pictured.pool.count ≤ (4 : Byte).toNat ∧
      (pictured.pool.buf 3).state = .free ∧ (pictured.pool.buf 0).state = .new ∧
      (pictured.pool.buf 0).desc = some descriptor ∧ descriptor.values.segs = 1 := by
  refine ⟨fun _ => ⟨takes_idle _ rfl, takes_idle _ rfl⟩, fun a ha => ?_, takes_here _ _ rfl rfl rfl rfl rfl,
    fun _ _ _ => ⟨takes_here _ _ rfl rfl rfl rfl rfl, takes_here _ _ rfl rfl rfl rfl rfl⟩, by decide +kernel⟩
  simp only [List.mem_cons, List.not_mem_nil, or_false] at ha
  obtain rfl | rfl | rfl | rfl := ha <;> exact takes_storeIn _ _ rfl rfl

/-- 12 R216: SEGMENTS of the one segment, asked for two. -/
theorem test_segments :
    (next (.segments 1 0 0 2) pictured).map (fun t => t.link.resp.map (fun r => (r.code, r.data.take 8, r.data.length))) =
      some [(.clamped, [0, 0, 0, 0, 1, 0, 0, 1], 8 + 18)] := by decide +kernel

end Sys2Proof.Tests
end

section
/-!
PROOFS. Correction of a raw code (01 R5, R6), and what a group of members yields in each mode (01 R9 to R11).
-/

namespace Sys2Proof.Machine

/-! ## Correction (01 R5, R6) -/

/-- The corrected code's magnitude is that of step 3; its sign is that of r - z (01 R5). -/
theorem correctedRaw_of_nonneg (e : CorrEntry) (r : Nat) (h : 0 ≤ (r : Int) - e.zero) :
    correctedRaw e r = correctedMagnitude e r := if_pos (by omega)

theorem correctedRaw_of_neg (e : CorrEntry) (r : Nat) (h : (r : Int) - e.zero < 0) :
    correctedRaw e r = -(correctedMagnitude e r : Int) := if_neg (by omega)

/-- What rounding to the nearest multiple of 4096 leaves: the magnitude in fours of 1024 lies at most a half off, and at the
half it lies above. -/
theorem correctedMagnitude_bounds (e : CorrEntry) (r : Nat) :
    let q := ((r : Int) - e.zero).natAbs * e.gain
    4096 * correctedMagnitude e r ≤ q + 2048 ∧ q < 4096 * correctedMagnitude e r + 2048 := by
  simp only [correctedMagnitude]
  omega

/-- A product with its first factor's sign taken off (01 R5). -/
theorem product_of_nonneg (a : Int) (g : Nat) (h : 0 ≤ a) : a * g = ((a.natAbs * g : Nat) : Int) := by
  rw [Nat.cast_mul, Int.natAbs_of_nonneg h]

theorem product_of_neg (a : Int) (g : Nat) (h : a < 0) : a * g = -((a.natAbs * g : Nat) : Int) := by
  rw [Nat.cast_mul, Int.ofNat_natAbs_of_nonpos (by omega), Int.neg_mul, Int.neg_neg]

/-- The corrected code is held to -512..511 and its clip mark says whether it had to be (01 R6). -/
theorem correct_spec (e : CorrEntry) (r : Nat) :
    -512 ≤ (correct e r).1 ∧ (correct e r).1 ≤ 511 ∧
      (511 < correctedRaw e r → correct e r = (511, true)) ∧
      (correctedRaw e r < -512 → correct e r = (-512, true)) ∧
      (-512 ≤ correctedRaw e r → correctedRaw e r ≤ 511 → correct e r = (correctedRaw e r, false)) := by
  obtain ⟨hlo, hhi⟩ := clampInt_range (-512) 511 (correctedRaw e r) (by decide)
  refine ⟨hlo, hhi, fun h => ?_, fun h => ?_, fun h1 h2 => ?_⟩
  · simp only [correct, clampInt, if_neg (show ¬ correctedRaw e r < -512 by omega), h, if_true, or_true, decide_true]
  · simp only [correct, clampInt, h, if_true, true_or, decide_true]
  · simp only [correct, clampInt_id _ _ _ h1 h2, Prod.mk.injEq, decide_eq_false_iff_not, true_and]
    omega

/-! ## Sample words (12 R218) -/

/-- The CLIP bit of a sample word. -/
theorem sampleWord_msb (c : Int) (k : Bool) : (sampleWord c k).msb = k := by
  have h : ((BitVec.ofInt 10 c).setWidth 16).msb = false := by
    simp [BitVec.msb_setWidth]
  cases k <;> simp [sampleWord, BitVec.msb_or, h]
  decide

/-- The code of a sample word is the code it was made of. -/
theorem wordCode_sampleWord (c : Int) (k : Bool) (hlo : -512 ≤ c) (hhi : c ≤ 511) : wordCode (sampleWord c k) = c := by
  have hcode : (sampleWord c k).setWidth 10 = BitVec.ofInt 10 c := by
    unfold sampleWord
    rw [BitVec.setWidth_or, BitVec.setWidth_setWidth_of_le _ (by decide), BitVec.setWidth_eq]
    cases k <;> simp
  rw [wordCode, hcode, BitVec.toInt_ofInt]
  exact Int.bmod_eq_of_le (by omega) (by omega)

/-! ## The accumulator of a group (01 R9 to R11) -/

/-- The code `v` stands at one end of the members' codes in the order `le`, and `k` says whether a member of that code was
clipped (01 R10). -/
structure EndOf (le : Int → Int → Prop) (v : Int) (k : Bool) (ms : List (Int × Bool)) : Prop where
  bounds : ∀ m ∈ ms, le v m.1
  mem : ∃ m ∈ ms, m.1 = v
  clip : k = true ↔ ∃ m ∈ ms, m.1 = v ∧ m.2 = true

section

variable {le : Int → Int → Prop} {v : Int} {k : Bool} {ms : List (Int × Bool)}

/-- A member beyond the end is the new end. -/
theorem EndOf.snoc_beyond (total : ∀ a b, le a b ∨ le b a) (trans : ∀ a b c, le a b → le b c → le a c)
    (h : EndOf le v k ms) (m : Int × Bool) (hm : ¬ le v m.1) : EndOf le m.1 m.2 (ms ++ [m]) where
  bounds := by
    have hv : le m.1 v := (total v m.1).resolve_left hm
    simp only [List.forall_mem_append, List.forall_mem_singleton]
    exact ⟨fun x hx => trans _ _ _ hv (h.bounds x hx), (or_self_iff).mp (total m.1 m.1)⟩
  mem := ⟨m, by simp, rfl⟩
  clip := by
    have hold : ∀ x ∈ ms, x.1 ≠ m.1 := fun x hx e => hm (e ▸ h.bounds x hx)
    refine ⟨fun hk => ⟨m, by simp, rfl, hk⟩, fun ⟨x, hx, he, hk⟩ => ?_⟩
    rcases List.mem_append.mp hx with hx | hx
    · exact absurd he (hold x hx)
    · rwa [List.mem_singleton.mp hx] at hk

/-- A member at the end adds its clip mark to that of the end. -/
theorem EndOf.snoc_equal (total : ∀ a b, le a b ∨ le b a) (h : EndOf le v k ms) (m : Int × Bool) (hm : m.1 = v) :
    EndOf le v (k || m.2) (ms ++ [m]) where
  bounds := by
    simp only [List.forall_mem_append, List.forall_mem_singleton]
    exact ⟨h.bounds, hm ▸ (or_self_iff).mp (total m.1 m.1)⟩
  mem := ⟨m, by simp, hm⟩
  clip := by
    simp only [Bool.or_eq_true, h.clip, List.mem_append, List.mem_singleton, or_and_right, exists_or, exists_eq_left, hm,
      true_and]

/-- A member short of the end leaves it. -/
theorem EndOf.snoc_within (h : EndOf le v k ms) (m : Int × Bool) (hm : le v m.1) (hne : m.1 ≠ v) :
    EndOf le v k (ms ++ [m]) where
  bounds := by
    simp only [List.forall_mem_append, List.forall_mem_singleton]
    exact ⟨h.bounds, hm⟩
  mem := h.mem.imp fun _ ⟨hx, he⟩ => ⟨by simp [hx], he⟩
  clip := by
    simp only [h.clip, List.mem_append, List.mem_singleton, or_and_right, exists_or, exists_eq_left, hne, false_and,
      or_false]

end

/-- What an accumulator holds of the members taken so far, `m0` the first and `ms` all of them (01 R9 to R11). -/
structure Accumulates (a : Acc) (m0 : Int × Bool) (ms : List (Int × Bool)) : Prop where
  first : a.first = m0.1 ∧ a.firstClip = m0.2
  least : EndOf (· ≤ ·) a.min a.minClip ms
  greatest : EndOf (· ≥ ·) a.max a.maxClip ms
  sum : a.sum = (ms.map (fun m => m.1)).sum
  anyClip : a.anyClip = ms.any (fun m => m.2)

/-- A group's first member. -/
theorem accumulates_first (m : Int × Bool) : Accumulates (Acc.add none m.1 m.2) m [m] := by
  refine ⟨⟨rfl, rfl⟩, ⟨?_, ?_, ?_⟩, ⟨?_, ?_, ?_⟩, ?_, ?_⟩ <;> simp [Acc.add]

/-- The minimum with one more member. -/
theorem Accumulates.add_least {a : Acc} {m0 : Int × Bool} {ms : List (Int × Bool)} (h : Accumulates a m0 ms)
    (m : Int × Bool) :
    EndOf (· ≤ ·) (Acc.add (some a) m.1 m.2).min (Acc.add (some a) m.1 m.2).minClip (ms ++ [m]) := by
  simp only [Acc.add]
  by_cases hlt : m.1 < a.min
  · simpa only [if_pos hlt] using h.least.snoc_beyond Int.le_total (fun _ _ _ => Int.le_trans) m (by omega)
  · by_cases heq : m.1 = a.min
    · simpa only [if_neg hlt, if_pos heq] using h.least.snoc_equal Int.le_total m heq
    · simpa only [if_neg hlt, if_neg heq] using h.least.snoc_within m (by omega) heq

/-- The maximum with one more member. -/
theorem Accumulates.add_greatest {a : Acc} {m0 : Int × Bool} {ms : List (Int × Bool)} (h : Accumulates a m0 ms)
    (m : Int × Bool) :
    EndOf (· ≥ ·) (Acc.add (some a) m.1 m.2).max (Acc.add (some a) m.1 m.2).maxClip (ms ++ [m]) := by
  have total : ∀ x y : Int, x ≥ y ∨ y ≥ x := fun x y => Int.le_total y x
  simp only [Acc.add]
  by_cases hlt : a.max < m.1
  · simpa only [if_pos hlt] using h.greatest.snoc_beyond total (fun _ _ _ h1 h2 => Int.le_trans h2 h1) m (by omega)
  · by_cases heq : m.1 = a.max
    · simpa only [if_neg hlt, if_pos heq] using h.greatest.snoc_equal total m heq
    · simpa only [if_neg hlt, if_neg heq] using h.greatest.snoc_within m (by omega) heq

/-- One more member. -/
theorem Accumulates.add {a : Acc} {m0 : Int × Bool} {ms : List (Int × Bool)} (h : Accumulates a m0 ms) (m : Int × Bool) :
    Accumulates (Acc.add (some a) m.1 m.2) m0 (ms ++ [m]) :=
  ⟨h.first, h.add_least m, h.add_greatest m, by simp [Acc.add, h.sum], by simp [Acc.add, h.anyClip]⟩

/-- The members taken one after another. -/
theorem Accumulates.foldl (m0 : Int × Bool) (rest : List (Int × Bool)) :
    ∀ (a : Acc) (ms : List (Int × Bool)), Accumulates a m0 ms →
      ∃ b, rest.foldl (fun a m => some (Acc.add a m.1 m.2)) (some a) = some b ∧ Accumulates b m0 (ms ++ rest) := by
  induction rest with
  | nil => intro a ms h; exact ⟨a, rfl, by rwa [List.append_nil]⟩
  | cons m rest ih =>
    intro a ms h
    obtain ⟨b, hb, hacc⟩ := ih _ _ (h.add m)
    exact ⟨b, hb, by rwa [List.append_assoc] at hacc⟩

/-- The accumulator of a group with at least one member. -/
theorem accOf_cons (m0 : Int × Bool) (rest : List (Int × Bool)) :
    ∃ a, accOf (m0 :: rest) = some a ∧ Accumulates a m0 (m0 :: rest) :=
  Accumulates.foldl m0 rest _ _ (accumulates_first m0)

/-- An end of codes within the corrected range lies within it. -/
theorem EndOf.inRange {le : Int → Int → Prop} {v : Int} {k : Bool} {ms : List (Int × Bool)} (h : EndOf le v k ms)
    (hms : ∀ m ∈ ms, -512 ≤ m.1 ∧ m.1 ≤ 511) : -512 ≤ v ∧ v ≤ 511 := by
  obtain ⟨m, hm, rfl⟩ := h.mem
  exact hms m hm

/-! ## The mean (01 R11) -/

/-- The sum of codes within the corrected range. -/
theorem sum_bounds (ms : List (Int × Bool)) (h : ∀ m ∈ ms, -512 ≤ m.1 ∧ m.1 ≤ 511) :
    -512 * (ms.length : Int) ≤ (ms.map (fun m => m.1)).sum ∧ (ms.map (fun m => m.1)).sum ≤ 511 * (ms.length : Int) := by
  induction ms with
  | nil => exact ⟨le_refl _, le_refl _⟩
  | cons m rest ih =>
    obtain ⟨hm, hrest⟩ := List.forall_mem_cons.mp h
    have := ih hrest
    simp only [List.map_cons, List.sum_cons, List.length_cons, Nat.cast_add, Nat.cast_one]
    omega

theorem meanCode_of_nonneg (s : Int) (d : Nat) (h : 0 ≤ s) :
    meanCode s d = ((2 * s.natAbs + d) / (2 * d) : Nat) := if_pos h

theorem meanCode_of_neg (s : Int) (d : Nat) (h : s < 0) :
    meanCode s d = -((2 * s.natAbs + d) / (2 * d) : Nat) := if_neg (by omega)

/-- The magnitude of the mean (01 R11). -/
theorem natAbs_meanCode (s : Int) (d : Nat) : (meanCode s d).natAbs = (2 * s.natAbs + d) / (2 * d) := by
  rcases lt_or_ge s 0 with h | h
  · rw [meanCode_of_neg s d h, Int.natAbs_neg, Int.natAbs_natCast]
  · rw [meanCode_of_nonneg s d h, Int.natAbs_natCast]

/-- The sign of the mean (01 R11). -/
theorem meanCode_sign (s : Int) (d : Nat) : (0 ≤ s → 0 ≤ meanCode s d) ∧ (s < 0 → meanCode s d ≤ 0) := by
  refine ⟨fun h => ?_, fun h => ?_⟩
  · exact meanCode_of_nonneg s d h ▸ Int.natCast_nonneg _
  · exact meanCode_of_neg s d h ▸ Int.neg_nonpos_of_nonneg (Int.natCast_nonneg _)

/-- The mean of one member is the member (01 R11, D = 1). -/
theorem meanCode_one (s : Int) : meanCode s 1 = s := by
  have := natAbs_meanCode s 1
  have := meanCode_sign s 1
  omega

/-- The mean of members whose sum is 0. -/
theorem meanCode_zero (d : Nat) (hd : 1 ≤ d) : meanCode 0 d = 0 := by
  rw [← Int.natAbs_eq_zero, natAbs_meanCode]
  exact Nat.div_eq_of_lt (by simp only [Int.natAbs_zero]; omega)

/-- The mean of codes within the corrected range lies within it (01 R11). -/
theorem meanCode_inRange (s : Int) (d : Nat) (hd : 1 ≤ d) (hlo : -512 * (d : Int) ≤ s) (hhi : s ≤ 511 * (d : Int)) :
    -512 ≤ meanCode s d ∧ meanCode s d ≤ 511 := by
  have habs := natAbs_meanCode s d
  obtain ⟨hpos, hneg⟩ := meanCode_sign s d
  by_cases h : 0 ≤ s
  · have : (2 * s.natAbs + d) / (2 * d) < 512 := (Nat.div_lt_iff_lt_mul (by omega)).mpr (by omega)
    have := hpos h
    omega
  · have : (2 * s.natAbs + d) / (2 * d) < 513 := (Nat.div_lt_iff_lt_mul (by omega)).mpr (by omega)
    have := hneg (by omega)
    omega

/-- The stored length of a record in each mode (03 R45). -/
theorem stored_of_sample {w : Setup} (h : w.mode = .sample) : w.stored = w.length := by
  simp [Setup.stored, h, AcqMode.perGroup]

theorem stored_of_peak {w : Setup} (h : w.mode = .peak) : w.stored = 2 * w.length := by
  simp [Setup.stored, h, AcqMode.perGroup, Nat.mul_comm]

theorem stored_of_hires {w : Setup} (h : w.mode = .hires) : w.stored = w.length := by
  simp [Setup.stored, h, AcqMode.perGroup]

end Sys2Proof.Machine

open Sys2Proof Sys2Proof.Machine

/-- Settles O16: with the sign taken off, step 3 rounds a natural number to the nearest multiple of 4096, halves upwards. -/
theorem correctionRoundsHalfAwayFromZero : Obligations.CorrectionRoundsHalfAwayFromZero := by
  intro e r hr hz hg a q m c0
  have hq : q ≤ 1023 * 8191 := Nat.mul_le_mul (by omega) hg
  obtain ⟨hm1, hm2⟩ := correctedMagnitude_bounds e r
  have hm : correctedMagnitude e r = m := rfl
  rw [hm] at hm1 hm2
  have hqm : q < 4096 * m + 2048 ∧ 4096 * m ≤ q + 2048 := ⟨hm2, hm1⟩
  have hpos : 0 ≤ a → c0 = m := fun h => correctedRaw_of_nonneg e r h
  have hneg : a < 0 → c0 = -(m : Int) := fun h => correctedRaw_of_neg e r h
  have hprod : 0 ≤ a ∧ a * e.gain = (q : Int) ∨ a < 0 ∧ a * e.gain = -(q : Int) :=
    (lt_or_ge a 0).elim (fun h => .inr ⟨h, product_of_neg a e.gain h⟩) (fun h => .inl ⟨h, product_of_nonneg a e.gain h⟩)
  have ha : a = (r : Int) - e.zero := rfl
  clear_value a q m c0
  rcases hprod with ⟨h, hp⟩ | ⟨h, hp⟩
  · have := hpos h
    rw [hp]
    omega
  · have := hneg h
    rw [hp]
    omega

/-- Settles O17: the accumulator holds the members' sum, whose rounded mean fits ten bits. -/
theorem hiresWordsHoldTheMean : Obligations.HiresWordsHoldTheMean := by
  intro members w hlen hmax hms
  match members, hlen with
  | m0 :: rest, hlen =>
    intro d s
    obtain ⟨a, ha, hacc⟩ := accOf_cons m0 rest
    obtain ⟨hlo, hhi⟩ := sum_bounds (m0 :: rest) hms
    obtain ⟨hclo, hchi⟩ := meanCode_inRange s d hlen hlo hhi
    have hcode : wordCode (sampleWord (meanCode a.sum d) a.anyClip) = meanCode s d := by
      rw [hacc.sum]; exact wordCode_sampleWord _ _ hclo hchi
    obtain ⟨hpos, hneg⟩ := meanCode_sign s d
    refine ⟨a, _, ha, rfl, hacc.sum, ?_⟩
    rw [hcode, sampleWord_msb]
    refine ⟨natAbs_meanCode s d, fun h => hpos h.le, hneg, fun h => ?_, hacc.anyClip, hclo, hchi, hlo, hhi, ?_,
      stored_of_hires, fun m hm => ?_⟩
    · rw [h]; exact meanCode_zero d hlen
    · have : (d : Int) ≤ 1000000 := by exact_mod_cast hmax
      change -512 * (d : Int) ≤ s at hlo
      change s ≤ 511 * (d : Int) at hhi
      omega
    · obtain ⟨rfl, rfl⟩ := List.cons.inj hm
      rw [hacc.anyClip]
      exact ⟨by simpa [s, d] using meanCode_one m0.1, by simp⟩

/-- Settles O18: the accumulator holds the first member and both ends of the group. -/
theorem sampleAndPeakWordsFollowTheGroup : Obligations.SampleAndPeakWordsFollowTheGroup := by
  intro m0 rest w hms
  obtain ⟨a, ha, hacc⟩ := accOf_cons m0 rest
  obtain ⟨hfirst, hclip⟩ := hacc.first
  obtain ⟨h0lo, h0hi⟩ := hms m0 (by simp)
  obtain ⟨hminlo, hminhi⟩ := hacc.least.inRange hms
  obtain ⟨hmaxlo, hmaxhi⟩ := hacc.greatest.inRange hms
  refine ⟨a, _, _, _, ha, rfl, ?_, ?_, rfl, ?_⟩
  · rw [hfirst, wordCode_sampleWord _ _ h0lo h0hi]
  · rw [sampleWord_msb, hclip]
  · rw [wordCode_sampleWord _ _ hminlo hminhi, wordCode_sampleWord _ _ hmaxlo hmaxhi, sampleWord_msb, sampleWord_msb]
    exact ⟨fun m hm => ⟨hacc.least.bounds m hm, hacc.greatest.bounds m hm⟩, hacc.least.mem, hacc.greatest.mem,
      hacc.least.clip, hacc.greatest.clip, stored_of_sample, stored_of_peak⟩
end

section
/-!
PROOFS. SAMPLE stage by stage: the tick itself, the examination for a fire, the group's words handed to the writer FIFO, and
the group counted as written. Each stage has one lemma on what it can do; the statements on SAMPLE are put together from them.
-/

namespace Sys2Proof.Machine

/-! ## What the stages after the tick leave of it -/

/-- The part of the sequencer that the tick sets: the tick counter, its marks and the EXT conditioner (02 R16, R20). -/
def Trigger.clock (x : Trigger) : Tick × Bool × Bool × Bool × Nat := (x.tick, x.begun, x.halted, x.ext, x.extCount)

/-- The part of the Sample Path that the tick sets, and the correction table (01 R1, R2, R7). -/
def SamplePath.tickPart (p : SamplePath) : Table CorrEntry × PerCh (BitVec 10) × PerCh Int := (p.corr, p.held, p.codes)

/-- The part of the Acquisition Controller that belongs to the record set in progress and to no segment (03 R45). -/
def Acq.setPart (a : Acq) : RunState × Option Nat × Option Captured × List SegEntry := (a.run, a.cur, a.captured, a.table)

/-- What every stage of a sample after the tick itself keeps. -/
structure KeepsTick (s u : State) : Prop where
  frame : onlyTouches [.sp, .trg, .acq, .smc, .mem] s u
  path : u.sp.tickPart = s.sp.tickPart
  clock : u.trg.clock = s.trg.clock
  set : u.acq.setPart = s.acq.setPart

theorem onlyTouches_refl (l : List Block) (s : State) : onlyTouches l s s := ⟨rfl, fun b _ => by cases b <;> rfl⟩

theorem KeepsTick.trans {s u v : State} (h : KeepsTick s u) (k : KeepsTick u v) : KeepsTick s v :=
  ⟨onlyTouches_trans h.frame k.frame _ (fun _ hb => hb) (fun _ hb => hb), k.path.trans h.path, k.clock.trans h.clock,
    k.set.trans h.set⟩

/-- A replacement of the Sample Path that keeps the tick's part of it. -/
theorem KeepsTick.withSp (s : State) (x : SamplePath) (h : x.tickPart = s.sp.tickPart) : KeepsTick s (s.withSp x) :=
  ⟨by apply onlyTouches_of <;> simp [Block.same], h, rfl, rfl⟩

/-! ## The examination (02 R21, R34) -/

/-- What the examination of a sample can leave of the state `s` it is made in: the sequencer's clock stands, and of the
acquisition only a fire changes anything, the state and the segment's fire record. -/
structure Examined (s u : State) : Prop where
  frame : onlyTouches [.trg, .acq] s u
  clock : u.trg.clock = s.trg.clock
  acq : u.acq = { s.acq with state := u.acq.state, seg := u.acq.seg }
  gapped : s.acq.seg.isSome = true → u.acq.seg.map (fun r => r.gapped) = s.acq.seg.map (fun r => r.gapped)
  state : u.acq.state = s.acq.state ∨ u.acq.state = .triggered

/-- An examination without a fire. -/
theorem Examined.withTrg (s : State) (x : Trigger) (h : x.clock = s.trg.clock) : Examined s (s.withTrg x) :=
  ⟨by apply onlyTouches_of <;> simp [Block.same], h, rfl, fun _ => rfl, .inl rfl⟩

theorem Examined.refl (s : State) : Examined s s := ⟨onlyTouches_refl _ s, rfl, rfl, fun _ => rfl, .inl rfl⟩

/-- A fire keeps the segment's GAPPED flag (02 R34 to R36, 03 R49). -/
theorem fire_examined (kind : FireKind) (t : Tick) (s : State) : Examined s (s.fire kind t) := by
  refine ⟨by apply onlyTouches_of <;> simp [Block.same, State.fire], rfl, rfl, fun h => ?_, .inr rfl⟩
  obtain ⟨r, hr⟩ := Option.isSome_iff_exists.mp h
  simp [State.fire, hr]

/-- A fire after the comparators and the measurement have been updated. -/
theorem Examined.fire_withTrg (kind : FireKind) (t : Tick) (s : State) (x : Trigger) (h : x.clock = s.trg.clock) :
    Examined s ((s.withTrg x).fire kind t) := by
  obtain ⟨hframe, hclock, hacq, hgapped, hstate⟩ := fire_examined kind t (s.withTrg x)
  exact ⟨onlyTouches_trans (Examined.withTrg s x h).frame hframe _ (fun _ hb => hb) (fun _ hb => hb), hclock.trans h, hacq,
    hgapped, hstate⟩

/-- Every way an examination ends (02 R34). -/
theorem examine_examined (t : Tick) (s : State) : Examined s (s.examine t) := by
  unfold State.examine
  split
  · exact Examined.refl s
  · split
    · exact fire_examined _ _ _
    · split
      · exact Examined.refl s
      · dsimp only
        split
        · exact Examined.fire_withTrg _ _ _ _ rfl
        · split
          · exact Examined.fire_withTrg _ _ _ _ rfl
          · split
            · exact Examined.withTrg s _ rfl
            · exact Examined.withTrg s _ rfl

/-- A sample that is not examined updates the comparators alone (02 R21, log 44). -/
theorem updateComparators_examined (s : State) : Examined s s.updateComparators := by
  unfold State.updateComparators
  split
  · exact Examined.withTrg s _ rfl
  · exact Examined.refl s

theorem trySample_examined (unexamined : Bool) (t : Tick) (s : State) : Examined s (s.trySample unexamined t) := by
  unfold State.trySample
  split
  · exact updateComparators_examined s
  · exact examine_examined t s

/-- Outside READY a sample does nothing at the sequencer (02 R21, R34). -/
theorem trySample_of_not_ready (unexamined : Bool) (t : Tick) (s : State) (h : s.acq.state ≠ .ready) :
    s.trySample unexamined t = s := by
  unfold State.trySample State.updateComparators State.examine
  simp [h]

/-! ## Words handed to the writer FIFO (04 R71, R72) -/

/-- The FIFO entry of a word handed at an address in the segment in progress (04 R71, log 16). -/
def Acq.fifoEntry (a : Acq) (w : Nat × SampleWord) : FifoEntry := ⟨w.1, w.2, a.setId, a.segIdx⟩

/-- The segment marked GAPPED where a word was discarded (04 R72). -/
def Acq.gapIf (a : Acq) (lost : Bool) : Acq := { a with seg := a.seg.map (fun r => { r with gapped := r.gapped || lost }) }

theorem Acq.gapIf_false (a : Acq) : a.gapIf false = a := by
  have : a.seg.map (fun r => { r with gapped := r.gapped || false }) = a.seg := by cases a.seg <;> simp
  rw [Acq.gapIf, this]

theorem Acq.gapIf_gapIf (a : Acq) (b c : Bool) : (a.gapIf b).gapIf c = a.gapIf (b || c) := by
  cases h : a.seg <;> simp [Acq.gapIf, h, Bool.or_assoc]

@[simp] theorem Acq.fifoEntry_gapIf (a : Acq) (b : Bool) : (a.gapIf b).fifoEntry = a.fifoEntry := rfl

theorem Acq.gapped_gapIf (a : Acq) (b : Bool) :
    (a.gapIf b).seg.map (fun r => r.gapped) = a.seg.map (fun r => r.gapped || b) := by
  simp [Acq.gapIf, Function.comp_def]

/-- A word that meets a free place goes in front of those that follow it; one that meets none is discarded with them. -/
theorem acceptedWords_cons_of_room (fifo : List FifoEntry) (e : FifoEntry) (rest : List FifoEntry)
    (h : fifo.length < 4096) : acceptedWords fifo (e :: rest) = acceptedWords (fifo ++ [e]) rest := by
  obtain ⟨n, hn⟩ : ∃ n, 4096 - fifo.length = n + 1 := ⟨4096 - fifo.length - 1, by omega⟩
  have hn' : 4096 - (fifo ++ [e]).length = n := by simp; omega
  simp only [acceptedWords, hn, hn', List.take_succ_cons, List.append_assoc, List.singleton_append]

theorem acceptedWords_of_full (fifo words : List FifoEntry) (h : 4096 ≤ fifo.length) : acceptedWords fifo words = fifo := by
  simp [acceptedWords, Nat.sub_eq_zero_of_le h]

/-- Words handed one after another: those that find places are appended, and the segment is GAPPED where one finds none. -/
theorem handWords_eq (ws : List (Nat × SampleWord)) : ∀ s : State,
    s.handWords ws = (s.withSmc { s.smc with fifo := acceptedWords s.smc.fifo (ws.map s.acq.fifoEntry) }).withAcq
      (s.acq.gapIf (decide (4096 - s.smc.fifo.length < ws.length))) := by
  induction ws with
  | nil => intro s; simp [State.handWords, acceptedWords, Acq.gapIf_false]; rfl
  | cons w rest ih =>
    intro s
    rw [State.handWords, ih]
    rcases handWord_cases w.1 w.2 s with ⟨hroom, e⟩ | ⟨hfull, e⟩
    · have hlost : (4096 - (s.smc.fifo ++ [s.acq.fifoEntry w]).length < rest.length) ↔
          4096 - s.smc.fifo.length < (w :: rest).length := by
        simp only [Config.writerFifoDepth] at hroom
        simp only [List.length_append, List.length_cons, List.length_nil]
        omega
      rw [List.map_cons, acceptedWords_cons_of_room _ _ _ hroom, ← decide_eq_decide.mpr hlost, e]
      rfl
    · have hlost : 4096 - s.smc.fifo.length < (w :: rest).length := by
        simp only [Config.writerFifoDepth] at hfull
        simp only [List.length_cons]
        omega
      have hgap : s.handWord w.1 w.2 = s.withAcq (s.acq.gapIf true) := by
        rw [e]; simp only [Acq.gapIf, Bool.or_true]
      rw [acceptedWords_of_full _ _ hfull, hgap]
      simp only [State.withAcq_smc, State.withAcq_acq, acceptedWords_of_full _ _ hfull, Acq.gapIf_gapIf, Bool.true_or, hlost,
        decide_true]
      rfl

theorem handWords_acq (ws : List (Nat × SampleWord)) (s : State) :
    (s.handWords ws).acq = s.acq.gapIf (decide (4096 - s.smc.fifo.length < ws.length)) := by
  rw [handWords_eq]
  rfl

/-- No write grant is due at the last sample's tick. -/
def State.noWriteDue (s : State) : Prop :=
  ∀ (e : Tick) (es : List FifoEntry) (k : Bool), s.smc.grant = some ⟨e, .write es k⟩ → reached s.lastTick e = false

theorem endDueWrite_of_noWriteDue (s : State) (h : s.noWriteDue) : s.endDueWrite = s := by
  unfold State.endDueWrite
  split
  · next e es k hg => simp [h e es k hg]
  · rfl

theorem endDueWrite_of_due (s : State) (e : Tick) (es : List FifoEntry) (k : Bool)
    (hg : s.smc.grant = some ⟨e, .write es k⟩) (hdue : reached s.lastTick e = true)
    (hes : ∀ y ∈ es, y.addr < 134217728) : s.endDueWrite = s.endWrite es k := by
  have hwords : wordsExist (es.map (fun x => x.addr)) = true := by
    simp only [wordsExist, List.all_map, List.all_eq_true, Function.comp_apply, decide_eq_true_eq]
    exact hes
  simp [State.endDueWrite, hg, hdue, hwords]

/-- The end of a due write grant among a group's words changes the sample memory and its controller alone. -/
theorem endDueWrite_frame (s : State) : onlyTouches [.smc, .mem] s s.endDueWrite := by
  unfold State.endDueWrite
  split
  · split
    · apply onlyTouches_of <;> simp [Block.same, State.endWrite]
    · exact onlyTouches_refl _ s
  · exact onlyTouches_refl _ s

theorem handWords_append (xs ys : List (Nat × SampleWord)) : ∀ s : State,
    s.handWords (xs ++ ys) = (s.handWords xs).handWords ys := by
  induction xs with
  | nil => intro s; rfl
  | cons x xs ih => intro s; exact ih _

/-- Where no write grant is due a group's words are handed one after another wherever the row says a grant ends. -/
theorem handGroup_of_quiet (split : Option Nat) (ws : List (Nat × SampleWord)) (s : State)
    (h : split = none ∨ s.noWriteDue) : s.handGroup split ws = s.handWords ws := by
  unfold State.handGroup
  split
  · rfl
  · next n =>
    have hquiet : s.noWriteDue := h.resolve_left (by simp)
    have hkept : (s.handWords (ws.take n)).noWriteDue := by
      intro e es k hg
      rw [handWords_eq] at hg ⊢
      exact hquiet e es k hg
    rw [endDueWrite_of_noWriteDue _ hkept, ← handWords_append, List.take_append_drop]

/-- Where a due write grant ends among a group's words, its words are written and its places are free for the rest
(04 R72, R74). -/
theorem handGroup_of_due (n : Nat) (ws : List (Nat × SampleWord)) (s : State) (e : Tick) (es : List FifoEntry) (k : Bool)
    (hg : s.smc.grant = some ⟨e, .write es k⟩) (hdue : reached s.lastTick e = true)
    (hes : ∀ y ∈ es, y.addr < 134217728) :
    let entries := ws.map s.acq.fifoEntry
    let held := acceptedWords s.smc.fifo (entries.take n)
    let freed := if k = true then held.drop es.length else held
    (s.handGroup (some n) ws).smc = ⟨acceptedWords freed (entries.drop n), none⟩ ∧
      (s.handGroup (some n) ws).mem = writeEntries s.mem es ∧
      (s.handGroup (some n) ws).acq = s.acq.gapIf (decide (4096 - s.smc.fifo.length < (entries.take n).length ∨
        4096 - freed.length < (entries.drop n).length)) := by
  intro entries held freed
  have hend : (s.handWords (ws.take n)).endDueWrite = (s.handWords (ws.take n)).endWrite es k := by
    rw [handWords_eq]
    exact endDueWrite_of_due _ e es k hg hdue hes
  simp only [State.handGroup, hend]
  rw [handWords_eq (ws.drop n), handWords_eq (ws.take n)]
  simp only [State.endWrite, State.withAcq_smc, State.withAcq_mem, State.withAcq_acq, State.withSmc_smc, State.withSmc_mem,
    State.withSmc_acq, State.withMem_acq, State.withMem_mem, Acq.fifoEntry_gapIf, Acq.gapIf_gapIf, List.map_take, List.map_drop]
  refine ⟨rfl, trivial, ?_⟩
  simp only [entries, List.length_take, List.length_drop, List.length_map, Bool.decide_or]
  rfl

/-- A group's words handed change the memory and its controller, and of the acquisition the segment's GAPPED flag alone. -/
theorem handGroup_frame (split : Option Nat) (ws : List (Nat × SampleWord)) (s : State) :
    onlyTouches [.smc, .acq, .mem] s (s.handGroup split ws) ∧ ∃ lost, (s.handGroup split ws).acq = s.acq.gapIf lost := by
  have hand : ∀ (xs : List (Nat × SampleWord)) (s : State), onlyTouches [.smc, .acq, .mem] s (s.handWords xs) :=
    fun xs s => onlyTouches_mono (handWords_frame xs s).1 _ (by decide)
  unfold State.handGroup
  split
  · exact ⟨hand ws s, _, handWords_acq ws s⟩
  · next n =>
    have hend := endDueWrite_frame (s.handWords (ws.take n))
    have hacq : (s.handWords (ws.take n)).endDueWrite.acq = (s.handWords (ws.take n)).acq := hend.2 .acq (by decide)
    have hframe := onlyTouches_trans (hand (ws.take n) s) hend [.smc, .acq, .mem] (by decide) (by decide)
    exact ⟨onlyTouches_trans hframe (hand (ws.drop n) _) _ (fun _ hb => hb) (fun _ hb => hb), _,
      by rw [handWords_acq, hacq, handWords_acq, Acq.gapIf_gapIf]⟩

theorem handGroup_keepsTick (split : Option Nat) (ws : List (Nat × SampleWord)) (s : State) :
    KeepsTick s (s.handGroup split ws) := by
  obtain ⟨hframe, lost, hacq⟩ := handGroup_frame split ws s
  have hsp : (s.handGroup split ws).sp = s.sp := hframe.2 .sp (by decide)
  have htrg : (s.handGroup split ws).trg = s.trg := hframe.2 .trg (by decide)
  exact ⟨onlyTouches_mono hframe _ (by decide), congrArg _ hsp, congrArg _ htrg, by rw [hacq]; rfl⟩

/-! ## A group counts as written (03 R47 to R49) -/

/-- What counting a group as written can do: one ordinal more, and with it the fill count and the entry to READY in ARMING or
the end of filling in TRIGGERED. -/
structure GroupCounted (s u : State) : Prop where
  frame : onlyTouches [.sp, .trg, .acq] s u
  path : u.sp = s.sp ∨ u.sp = s.sp.closeGrouping
  clock : u.trg.clock = s.trg.clock
  acq : u.acq = { s.acq with ordinal := s.acq.ordinal + 1, state := u.acq.state, fill := u.acq.fill }

/-- Entry to READY keeps the sequencer's clock. -/
theorem readyEntered_clock (w : Setup) (s : State) (x : Trigger) : (readyEntered w s x).clock = x.clock := by
  simp only [readyEntered]
  split <;> rfl

/-- A group in ARMING counts towards the pretrigger, whose last enters READY (03 R48). -/
theorem groupWritten_of_arming (s : State) (c : Captured) (hc : s.acq.captured = some c) (hs : s.acq.state = .arming) :
    let v := s.withAcq { s.acq with ordinal := s.acq.ordinal + 1, fill := s.acq.fill + 1 }
    s.groupWritten = if c.pre ≤ s.acq.fill + 1 then v.enterReady else v := by
  simp only [State.groupWritten, State.withAcq_acq, hc, hs]
  rfl

/-- Where neither the pretrigger nor the posttrigger is counted a group takes its ordinal alone: in READY the ring goes on
(03 R48). -/
theorem groupWritten_of_uncounted (s : State)
    (h : s.acq.captured = none ∨ s.acq.state ≠ .arming ∧
      ¬ (s.acq.state = .triggered ∧ ∃ r f, s.acq.seg = some r ∧ r.fire = some f)) :
    s.groupWritten = s.withAcq { s.acq with ordinal := s.acq.ordinal + 1 } := by
  simp only [State.groupWritten, State.withAcq_acq, State.withAcq_sp]
  split
  · rfl
  · next c hc =>
    obtain ⟨harming, hfired⟩ := h.resolve_left (by simp [hc])
    split
    · next hs => exact absurd hs harming
    · next hs =>
      split
      · next hseg => exact absurd ⟨hs, _, _, hseg, rfl⟩ hfired
      · rfl
    · rfl

/-- A group in TRIGGERED ends filling where the posttrigger is full with it (03 R49). -/
theorem groupWritten_of_triggered (s : State) (c : Captured) (r : SegRec) (f : FireRec) (hc : s.acq.captured = some c)
    (hs : s.acq.state = .triggered) (hr : s.acq.seg = some r) (hf : r.fire = some f) :
    let v := s.withAcq { s.acq with ordinal := s.acq.ordinal + 1 }
    s.groupWritten = if f.ordinal + (c.len - c.pre) ≤ s.acq.ordinal + 1 then v.withSp s.sp.closeGrouping else v := by
  obtain ⟨gapped, fire⟩ := r
  cases hf
  simp only [State.groupWritten, State.withAcq_acq, hc, hs, hr]
  rfl

theorem GroupCounted.withAcq (s : State) (st : AcqState) (fill : Nat) :
    GroupCounted s (s.withAcq { s.acq with ordinal := s.acq.ordinal + 1, state := st, fill := fill }) :=
  ⟨by apply onlyTouches_of <;> simp [Block.same], .inl rfl, rfl, rfl⟩

/-- Every way a group counts as written. -/
theorem groupWritten_counted (s : State) : GroupCounted s s.groupWritten := by
  have plain := GroupCounted.withAcq s s.acq.state s.acq.fill
  cases hc : s.acq.captured with
  | none => exact (groupWritten_of_uncounted s (.inl hc)).symm ▸ plain
  | some c =>
    by_cases harming : s.acq.state = .arming
    · rw [groupWritten_of_arming s c hc harming]
      by_cases hpre : c.pre ≤ s.acq.fill + 1
      · rw [if_pos hpre, enterReady_spec]
        exact ⟨by apply onlyTouches_of <;> simp [Block.same], .inl rfl, readyEntered_clock _ _ _, rfl⟩
      · rw [if_neg hpre]
        exact GroupCounted.withAcq s s.acq.state (s.acq.fill + 1)
    · by_cases hfired : s.acq.state = .triggered ∧ ∃ r f, s.acq.seg = some r ∧ r.fire = some f
      · obtain ⟨hs, r, f, hr, hf⟩ := hfired
        rw [groupWritten_of_triggered s c r f hc hs hr hf]
        by_cases hpost : f.ordinal + (c.len - c.pre) ≤ s.acq.ordinal + 1
        · rw [if_pos hpost]
          exact ⟨by apply onlyTouches_of <;> simp [Block.same], .inr rfl, rfl, rfl⟩
        · rw [if_neg hpost]
          exact plain
      · exact (groupWritten_of_uncounted s (.inr ⟨harming, hfired⟩)).symm ▸ plain

theorem GroupCounted.keepsTick {s u : State} (h : GroupCounted s u) : KeepsTick s u := by
  refine ⟨onlyTouches_mono h.frame _ (by decide), ?_, h.clock, by rw [h.acq]; rfl⟩
  rcases h.path with e | e
  · rw [e]
  · rw [e]; rfl

/-! ## Joining the group (01 R8, R12, R13) -/

theorem PerCh.get_of {α : Type} (f : Ch → α) (c : Ch) : (PerCh.of f).get c = f c := by cases c <;> rfl

/-- The accumulators with the sample's codes joined (01 R8). -/
def SamplePath.joinedAcc (p : SamplePath) (g : Grouping) (cs : PerCh (Int × Bool)) : PerCh (Option Acc) :=
  PerCh.of (fun c => if c ∈ g.chans then some (Acc.add (p.acc.get c) (cs.get c).1 (cs.get c).2) else none)

theorem joinedAcc_get (p : SamplePath) (g : Grouping) (cs : PerCh (Int × Bool)) (c : Ch) (h : c ∈ g.chans) :
    (p.joinedAcc g cs).get c = some (Acc.add (p.acc.get c) (cs.get c).1 (cs.get c).2) := by
  rw [SamplePath.joinedAcc, PerCh.get_of, if_pos h]

/-- The Sample Path with a member joined that is not its group's last (01 R8, R13). -/
def SamplePath.memberJoined (p : SamplePath) (g : Grouping) (cs : PerCh (Int × Bool)) : SamplePath :=
  { p with
    acc := p.joinedAcc g cs, groupPos := p.groupPos + 1, clipCount := countClips p.clipCount g.chans cs }

/-- The Sample Path as a group of `g` ends: no member of the next, the clips counted (01 R8, R13). -/
def SamplePath.groupEnded (p : SamplePath) (g : Grouping) (cs : PerCh (Int × Bool)) : SamplePath :=
  { p with acc := PerCh.const none, groupPos := 0, clipCount := countClips p.clipCount g.chans cs }

section

variable {s : State} {g : Grouping} {cs : PerCh (Int × Bool)}

theorem joinGroup_of_none (split : Option Nat) (hg : s.sp.grouping = none) : s.joinGroup cs split = s := by
  simp only [State.joinGroup, hg]

theorem joinGroup_of_inner (split : Option Nat) (hg : s.sp.grouping = some g) (h : s.sp.groupPos + 1 < g.decim) :
    s.joinGroup cs split = s.withSp (s.sp.memberJoined g cs) := by
  simp only [State.joinGroup, SamplePath.memberJoined, hg, if_pos h]
  rfl

theorem joinGroup_of_last (split : Option Nat) {c : Captured} {b : Nat} (hg : s.sp.grouping = some g)
    (h : g.decim ≤ s.sp.groupPos + 1) (hb : s.acq.cur = some b) (hc : s.acq.captured = some c) :
    s.joinGroup cs split =
      ((s.withSp (s.sp.groupEnded g cs)).handGroup split
        ((s.withSp (s.sp.groupEnded g cs)).groupEntries g c b (s.sp.joinedAcc g cs) 0 g.chans)).groupWritten := by
  simp only [State.joinGroup, SamplePath.groupEnded, hg, if_neg (Nat.not_lt.mpr h), State.withSp_acq, hb, hc]
  rfl

theorem joinGroup_of_unselected (split : Option Nat) (hg : s.sp.grouping = some g) (h : g.decim ≤ s.sp.groupPos + 1)
    (hset : s.acq.cur = none ∨ s.acq.captured = none) : s.joinGroup cs split = s.withSp (s.sp.groupEnded g cs) := by
  simp only [State.joinGroup, SamplePath.groupEnded, hg, if_neg (Nat.not_lt.mpr h), State.withSp_acq]
  rcases hset with e | e
  · rw [e]
  · rw [e]; cases s.acq.cur <;> rfl

end

/-- Every way a sample joins: it changes the Sample Path alone, or hands its group's words, which count as written. -/
theorem joinGroup_cases (cs : PerCh (Int × Bool)) (split : Option Nat) (s : State) :
    ∃ x : SamplePath, x.tickPart = s.sp.tickPart ∧
      (s.joinGroup cs split = s.withSp x ∨
        ∃ ws, s.joinGroup cs split = ((s.withSp x).handGroup split ws).groupWritten) := by
  cases hg : s.sp.grouping with
  | none => exact ⟨s.sp, rfl, .inl (joinGroup_of_none split hg)⟩
  | some g =>
    rcases Nat.lt_or_ge (s.sp.groupPos + 1) g.decim with h | h
    · exact ⟨s.sp.memberJoined g cs, rfl, .inl (joinGroup_of_inner split hg h)⟩
    · cases hb : s.acq.cur with
      | none => exact ⟨s.sp.groupEnded g cs, rfl, .inl (joinGroup_of_unselected split hg h (.inl hb))⟩
      | some b =>
        cases hc : s.acq.captured with
        | none => exact ⟨s.sp.groupEnded g cs, rfl, .inl (joinGroup_of_unselected split hg h (.inr hc))⟩
        | some c => exact ⟨s.sp.groupEnded g cs, rfl, .inr ⟨_, joinGroup_of_last split hg h hb hc⟩⟩

theorem joinGroup_keepsTick (cs : PerCh (Int × Bool)) (split : Option Nat) (s : State) :
    KeepsTick s (s.joinGroup cs split) := by
  obtain ⟨x, hx, e | ⟨ws, e⟩⟩ := joinGroup_cases cs split s
  · rw [e]
    exact KeepsTick.withSp s x hx
  · rw [e]
    exact (KeepsTick.withSp s x hx).trans ((handGroup_keepsTick split ws _).trans (groupWritten_counted _).keepsTick)

/-- Where no write grant is due among a group's words the memory and the grant stand (04 R72). -/
theorem joinGroup_of_quiet (cs : PerCh (Int × Bool)) (split : Option Nat) (s : State) (h : split = none ∨ s.noWriteDue) :
    (s.joinGroup cs split).mem = s.mem ∧ (s.joinGroup cs split).smc.grant = s.smc.grant := by
  obtain ⟨x, _, e | ⟨ws, e⟩⟩ := joinGroup_cases cs split s
  · rw [e]
    exact ⟨rfl, rfl⟩
  · have hcounted := (groupWritten_counted ((s.withSp x).handGroup split ws)).frame
    have hmem := hcounted.2 .mem (by decide)
    have hsmc := hcounted.2 .smc (by decide)
    rw [handGroup_of_quiet split ws (s.withSp x) h] at e hmem hsmc
    rw [e]
    exact ⟨hmem.trans (by rw [handWords_eq]; rfl), (congrArg MemCtl.grant hsmc).trans (by rw [handWords_eq]; rfl)⟩

/-! ## The tick itself and the whole row (01 R1, 02 R16, R20) -/

theorem conditionExt_of_same (value : Bool) (count : Nat) : conditionExt value count value = (value, 0) := if_pos rfl

theorem conditionExt_of_first (value pin : Bool) (count : Nat) (h : pin ≠ value) (hc : count < 2) :
    conditionExt value count pin = (value, count + 1) := by
  rw [conditionExt, if_neg h, if_pos hc]

theorem conditionExt_of_third (value pin : Bool) (count : Nat) (h : pin ≠ value) (hc : 2 ≤ count) :
    conditionExt value count pin = (pin, 0) := by
  rw [conditionExt, if_neg h, if_neg (by omega)]

/-- The state once the sample's tick has been taken and the sample examined, before it joins its group. -/
def State.sampled (raw : PerCh (BitVec 10)) (ext apart : Bool) (s : State) : State :=
  (s.takeSample raw (s.correctAll raw) ext).trySample (s.trg.halted && !apart) s.trg.tick

/-- SAMPLE: the tick and the examination, and then the group (01 R1). -/
theorem exec_sample (a b c d : Option (BitVec 10)) (ext : Bool) (split : Option Nat) (apart : Bool) (s : State) :
    exec (.sample a b c d ext split apart) s =
      .next ((s.sampled (portCodes s.sp.held a b c d) ext apart).joinGroup
        (s.correctAll (portCodes s.sp.held a b c d)) split) := rfl

section

variable (raw : PerCh (BitVec 10)) (ext apart : Bool) (s : State)

/-- The Sample Path at the tick: held and corrected codes (01 R1, R7). -/
def SamplePath.ticked (p : SamplePath) (raw : PerCh (BitVec 10)) (cs : PerCh (Int × Bool)) : SamplePath :=
  { p with held := raw, codes := PerCh.of (fun c => (cs.get c).1) }

theorem sampled_examined : Examined (s.takeSample raw (s.correctAll raw) ext) (s.sampled raw ext apart) :=
  trySample_examined _ _ _

theorem sampled_frame : onlyTouches [.sp, .trg, .acq] s (s.sampled raw ext apart) := by
  have htick : onlyTouches [.sp, .trg] s (s.takeSample raw (s.correctAll raw) ext) := by
    apply onlyTouches_of <;> simp [Block.same, State.takeSample]
  exact onlyTouches_trans htick (sampled_examined raw ext apart s).frame _ (by decide) (by decide)

theorem sampled_sp : (s.sampled raw ext apart).sp = s.sp.ticked raw (s.correctAll raw) :=
  (sampled_examined raw ext apart s).frame.2 .sp (by decide)

theorem sampled_clock : (s.sampled raw ext apart).trg.clock =
    (s.trg.tick + 1, false, false, conditionExt s.trg.ext s.trg.extCount ext) :=
  (sampled_examined raw ext apart s).clock

/-- The sample just taken is the last one (02 R16). -/
theorem sampled_lastTick : (s.sampled raw ext apart).lastTick = s.trg.tick := by
  have htick : (s.sampled raw ext apart).trg.tick = s.trg.tick + 1 := congrArg Prod.fst (sampled_clock raw ext apart s)
  rw [State.lastTick, htick]
  exact BitVec.add_sub_cancel _ _

theorem sampled_smc : (s.sampled raw ext apart).smc = s.smc := (sampled_frame raw ext apart s).2 .smc (by decide)

theorem sampled_mem : (s.sampled raw ext apart).mem = s.mem := (sampled_frame raw ext apart s).2 .mem (by decide)

/-- A write grant that is not due before the tick is not due among the group's words. -/
theorem sampled_noWriteDue
    (h : ∀ (e : Tick) (es : List FifoEntry) (k : Bool), s.smc.grant = some ⟨e, .write es k⟩ → s.due e = false) :
    (s.sampled raw ext apart).noWriteDue := by
  intro e es k hg
  rw [sampled_smc] at hg
  rw [sampled_lastTick]
  exact h e es k hg

theorem correctAll_get (c : Ch) : (s.correctAll raw).get c = correct (s.activeEntry c) (raw.get c).toNat :=
  PerCh.get_of _ c

end

end Sys2Proof.Machine

open Sys2Proof Sys2Proof.Machine

/-- Settles O19: the tick sets the clock, the held and the corrected codes, and no later stage of the sample changes them. -/
theorem samplesAreTakenAtEveryTick : Obligations.SamplesAreTakenAtEveryTick := by
  refine ⟨fun a b c d ext split apart s => ⟨_, exec_sample a b c d ext split apart s, ?_⟩, correct_spec⟩
  generalize hraw : portCodes s.sp.held a b c d = raw
  generalize hu : s.sampled raw ext apart = u
  have hframe : onlyTouches [.sp, .trg, .acq] s u := hu ▸ sampled_frame raw ext apart s
  have hacq : u.acq = { s.acq with state := u.acq.state, seg := u.acq.seg } := hu ▸ (sampled_examined raw ext apart s).acq
  have hsp : u.sp = s.sp.ticked raw (s.correctAll raw) := hu ▸ sampled_sp raw ext apart s
  have hkeeps := joinGroup_keepsTick (s.correctAll raw) split u
  have hclock := hkeeps.clock.trans (hu ▸ sampled_clock raw ext apart s)
  have hpath := hkeeps.path.trans (congrArg SamplePath.tickPart hsp)
  have hset := hkeeps.set.trans (congrArg Acq.setPart hacq)
  have hquiet := joinGroup_of_quiet (s.correctAll raw) split u
  have hnone : s.sp.grouping = none → u.joinGroup (s.correctAll raw) split = u :=
    fun h => joinGroup_of_none split (by rw [hsp]; exact h)
  generalize u.joinGroup (s.correctAll raw) split = t at *
  simp only [Trigger.clock, SamplePath.tickPart, SamplePath.ticked, Acq.setPart, Prod.mk.injEq] at hclock hpath hset
  obtain ⟨htick, hbegun, hhalted, hext⟩ := hclock
  obtain ⟨hcorr, hheld, hcodes⟩ := hpath
  obtain ⟨hrun, hcur, hcaptured, htable⟩ := hset
  have hsmc : u.smc = s.smc := hu ▸ sampled_smc raw ext apart s
  have hmem : u.mem = s.mem := hu ▸ sampled_mem raw ext apart s
  refine ⟨onlyTouches_trans hframe hkeeps.frame _ (by decide) (by decide), fun hq => ?_, hcorr, hbegun, hhalted, hrun, hcur,
    hcaptured, htable, htick, hheld.trans hraw.symm, fun ch => ?_, fun he => ?_, fun hne hc => ?_, fun hne hc => ?_,
    fun h => ?_⟩
  · have hdue := hquiet (hq.imp_right fun h => hu ▸ sampled_noWriteDue raw ext apart s h)
    exact ⟨hdue.1.trans hmem, hdue.2.trans (congrArg MemCtl.grant hsmc)⟩
  · rw [hcodes, PerCh.get_of, correctAll_get, hheld]
  · rw [he, conditionExt_of_same] at hext
    exact ⟨congrArg Prod.fst hext, congrArg Prod.snd hext⟩
  · rw [conditionExt_of_first _ _ _ hne hc] at hext
    exact ⟨congrArg Prod.fst hext, congrArg Prod.snd hext⟩
  · rw [conditionExt_of_third _ _ _ hne hc] at hext
    exact ⟨congrArg Prod.fst hext, congrArg Prod.snd hext⟩
  · rw [hnone h, hsp, hacq]
    exact ⟨hsmc, hmem, rfl, rfl, rfl, rfl, rfl⟩
end

section
/-!
PROOFS. The last member of a group: where its words go, and what the group's count does in ARMING, READY and TRIGGERED (01 R12,
03 R47 to R49, 04 R69, R71, R72).
-/

namespace Sys2Proof.Machine

/-! ## The words of a group (01 R12, 03 R47, 04 R69) -/

/-- The words of a group as FIFO entries: channel by channel, each at its ring position. -/
theorem groupEntries_fifoEntry (g : Grouping) (x : Captured) (n : Nat) (acc : PerCh (Option Acc)) (add : Ch → Acc)
    (s : State) : ∀ (chans : List Ch) (k : Nat), (∀ ch ∈ chans, acc.get ch = some (add ch)) →
      (s.groupEntries g x n acc k chans).map s.acq.fifoEntry = (chans.zipIdx k).flatMap (fun p =>
        (groupWords g.mode g.decim (add p.1)).zipIdx.map (fun q =>
          ⟨n * s.pool.capacity + (p.2 * x.segs + s.acq.segIdx) * x.stored
              + (s.acq.ordinal * x.mode.perGroup) % x.stored + q.2, q.1, s.acq.setId, s.acq.segIdx⟩)) := by
  intro chans
  induction chans with
  | nil => intro k h; rfl
  | cons ch rest ih =>
    intro k h
    obtain ⟨hch, hrest⟩ := List.forall_mem_cons.mp h
    rw [State.groupEntries, List.map_append, ih (k + 1) hrest, List.zipIdx_cons, List.flatMap_cons, hch]
    simp only [List.map_map]
    rfl

/-! ## The entry to READY (02 R31, R38) -/

theorem readyEntered_autoStart (w : Setup) (s : State) (x : Trigger) :
    (readyEntered w s x).autoStart = if w.auto = true then some s.lastTick else none := by
  simp only [readyEntered]
  split <;> rfl

theorem readyEntered_of_holdoff (w : Setup) (s : State) (x : Trigger) (h : x.holdoff ≠ none) :
    (readyEntered w s x).enabled = x.enabled := by
  simp only [readyEntered, if_pos h]

theorem readyEntered_of_free (w : Setup) (s : State) (x : Trigger) (h : x.holdoff = none) :
    (readyEntered w s x).enabled = true ∧ (readyEntered w s x).stage = 0 ∧ (readyEntered w s x).timeout = none ∧
      (readyEntered w s x).meas = some ⟨none, 0, s.lastTick⟩ ∧
      (readyEntered w s x).comps = (List.range w.stages).map (fun i => compInit (w.stage i) s.sp.codes s.trg.ext) := by
  simp [readyEntered, h]

/-! ## The count of a group, by the state it meets (03 R47 to R49) -/

/-- In ARMING the Sample Path stands, and the pretrigger's last group enters READY (03 R48). -/
theorem groupWritten_arming_spec (v : State) (x : Captured) (hc : v.acq.captured = some x) (hs : v.acq.state = .arming) :
    v.groupWritten.sp = v.sp ∧ v.groupWritten.acq.fill = v.acq.fill + 1 ∧
      (v.acq.fill + 1 < x.pre → v.groupWritten.acq.state = .arming) ∧
      (x.pre ≤ v.acq.fill + 1 →
        v.groupWritten.acq.state = .ready ∧ v.groupWritten.trg = readyEntered v.w v v.trg) := by
  rw [groupWritten_of_arming v x hc hs]
  by_cases h : x.pre ≤ v.acq.fill + 1
  · rw [if_pos h, enterReady_spec]
    exact ⟨rfl, rfl, fun hlt => absurd h (by omega), fun _ => ⟨rfl, rfl⟩⟩
  · rw [if_neg h]
    exact ⟨rfl, rfl, fun _ => hs, fun hle => absurd hle h⟩

/-- Outside ARMING the group takes its ordinal and the state stands (03 R48, R49). -/
theorem groupWritten_acq_of_not_arming (v : State) (hs : v.acq.state ≠ .arming) :
    v.groupWritten.acq = { v.acq with ordinal := v.acq.ordinal + 1 } := by
  by_cases hfired : v.acq.state = .triggered ∧ ∃ r f, v.acq.seg = some r ∧ r.fire = some f
  · obtain ⟨ht, r, f, hr, hf⟩ := hfired
    cases hc : v.acq.captured with
    | none => rw [groupWritten_of_uncounted v (.inl hc)]; simp [hc]
    | some x =>
      rw [groupWritten_of_triggered v x r f hc ht hr hf]
      split <;> simp [hc]
  · rw [groupWritten_of_uncounted v (.inr ⟨hs, hfired⟩)]
    rfl

/-- In READY the group goes on (03 R48). -/
theorem groupWritten_sp_of_ready (v : State) (hs : v.acq.state = .ready) : v.groupWritten.sp = v.sp := by
  rw [groupWritten_of_uncounted v (.inr (by simp [hs]))]
  rfl

/-- In TRIGGERED the group with which the posttrigger is full ends filling (03 R49). -/
theorem groupWritten_grouping_of_triggered (v : State) (x : Captured) (r : SegRec) (f : FireRec)
    (hc : v.acq.captured = some x) (hs : v.acq.state = .triggered) (hr : v.acq.seg = some r) (hf : r.fire = some f) :
    v.groupWritten.sp.grouping =
      if f.ordinal + (x.len - x.pre) ≤ v.acq.ordinal + 1 then none else v.sp.grouping := by
  rw [groupWritten_of_triggered v x r f hc hs hr hf]
  split <;> rfl

/-! ## The last member's group, handed -/

section

variable (raw : PerCh (BitVec 10)) (ext apart : Bool) (split : Option Nat) (g : Grouping) (x : Captured) (n : Nat)
  (s : State)

/-- The state in which a last member's group is handed: the sample taken and examined, and the group ended. -/
def State.completed : State :=
  (s.sampled raw ext apart).withSp ((s.sampled raw ext apart).sp.groupEnded g (s.correctAll raw))

/-- The words a last member completes, with their addresses in buffer `n`. -/
def State.completedWords : List (Nat × SampleWord) :=
  (s.completed raw ext apart g).groupEntries g x n ((s.sampled raw ext apart).sp.joinedAcc g (s.correctAll raw)) 0 g.chans

/-- The state with a last member's group handed, before the group counts as written. -/
def State.handed : State := (s.completed raw ext apart g).handGroup split (s.completedWords raw ext apart g x n)

theorem completed_smc : (s.completed raw ext apart g).smc = s.smc := sampled_smc raw ext apart s

theorem completed_mem : (s.completed raw ext apart g).mem = s.mem := sampled_mem raw ext apart s

theorem completed_sp : (s.completed raw ext apart g).sp =
    (s.sp.ticked raw (s.correctAll raw)).groupEnded g (s.correctAll raw) := by
  rw [State.completed, State.withSp_sp, sampled_sp]

/-- The words of a completed group are those read off the state before the sample (01 R12, 03 R47, 04 R69). -/
theorem completedWords_fifoEntry :
    (s.completedWords raw ext apart g x n).map (s.completed raw ext apart g).acq.fifoEntry = handedWords g x n raw s := by
  have hacq := (sampled_examined raw ext apart s).acq
  have hpool : (s.sampled raw ext apart).pool = s.pool := (sampled_frame raw ext apart s).2 .pool (by decide)
  have hget : ∀ ch ∈ g.chans, ((s.sampled raw ext apart).sp.joinedAcc g (s.correctAll raw)).get ch =
      some (Acc.add (s.sp.acc.get ch) (correct (s.activeEntry ch) (raw.get ch).toNat).1
        (correct (s.activeEntry ch) (raw.get ch).toNat).2) := by
    intro ch h
    rw [joinedAcc_get _ _ _ _ h, correctAll_get, sampled_sp]
    rfl
  refine (groupEntries_fifoEntry g x n _ _ (s.completed raw ext apart g) g.chans 0 hget).trans ?_
  simp only [State.completed, State.withSp_pool, State.withSp_acq, hpool]
  rw [hacq]
  rfl

/-- The handing changes the memory, its controller and the segment's GAPPED flag alone. -/
theorem handed_frame :
    (s.handed raw ext apart split g x n).sp =
        (s.sp.ticked raw (s.correctAll raw)).groupEnded g (s.correctAll raw) ∧
      (s.handed raw ext apart split g x n).trg = (s.sampled raw ext apart).trg ∧
      (s.handed raw ext apart split g x n).w = s.w ∧
      ∃ lost, (s.handed raw ext apart split g x n).acq = (s.sampled raw ext apart).acq.gapIf lost := by
  obtain ⟨hframe, hlost⟩ := handGroup_frame split (s.completedWords raw ext apart g x n) (s.completed raw ext apart g)
  have hsetup : (s.sampled raw ext apart).setup = s.setup := (sampled_frame raw ext apart s).2 .setup (by decide)
  exact ⟨(hframe.2 .sp (by decide)).trans (completed_sp raw ext apart g s), hframe.2 .trg (by decide),
    congrArg SetupCtl.working ((hframe.2 .setup (by decide)).trans hsetup), hlost⟩

/-- The acquisition's record once a last member's group has been handed, but for the state and the segment's record. -/
theorem handed_acq :
    (s.handed raw ext apart split g x n).acq.captured = s.acq.captured ∧
      (s.handed raw ext apart split g x n).acq.fill = s.acq.fill ∧
      (s.handed raw ext apart split g x n).acq.ordinal = s.acq.ordinal ∧
      (s.handed raw ext apart split g x n).acq.state = (s.sampled raw ext apart).acq.state := by
  obtain ⟨_, _, _, lost, hacq⟩ := handed_frame raw ext apart split g x n s
  rw [hacq, (sampled_examined raw ext apart s).acq]
  exact ⟨rfl, rfl, rfl, rfl⟩

variable {split s}

/-- The segment's GAPPED flag after words of a group have been handed (04 R72). -/
theorem sampled_gapIf_gapped (hseg : s.acq.seg.isSome = true) (lost : Bool) :
    ((s.sampled raw ext apart).acq.gapIf lost).seg.map (fun r => r.gapped) =
      s.acq.seg.map (fun r => r.gapped || lost) := by
  have hgapped := (sampled_examined raw ext apart s).gapped hseg
  have hor := congrArg (Option.map (· || lost)) hgapped
  simp only [Option.map_map, Function.comp_def] at hor
  exact (Acq.gapped_gapIf _ _).trans hor

/-- Where no write grant is due among the words they go to the FIFO one after another (04 R71, R72). -/
theorem handed_of_quiet (hseg : s.acq.seg.isSome = true) (hq : split = none ∨
      ∀ (e : Tick) (es : List FifoEntry) (k : Bool), s.smc.grant = some ⟨e, .write es k⟩ → s.due e = false) :
    let words := handedWords g x n raw s
    (s.handed raw ext apart split g x n).smc = { s.smc with fifo := acceptedWords s.smc.fifo words } ∧
      (s.handed raw ext apart split g x n).mem = s.mem ∧
      (s.handed raw ext apart split g x n).acq.seg.map (fun r => r.gapped) = s.acq.seg.map (fun r => r.gapped
        || decide (4096 - s.smc.fifo.length < words.length)) := by
  intro words
  have hwords : _ = words := completedWords_fifoEntry raw ext apart g x n s
  have hlen : (s.completedWords raw ext apart g x n).length = words.length := by rw [← List.length_map, hwords]
  have hnone : split = none ∨ (s.completed raw ext apart g).noWriteDue :=
    hq.imp_right fun h => sampled_noWriteDue raw ext apart s h
  rw [State.handed, handGroup_of_quiet _ _ _ hnone, handWords_eq, completed_smc, hlen, hwords]
  exact ⟨rfl, completed_mem raw ext apart g s, sampled_gapIf_gapped raw ext apart hseg _⟩

/-- Where a due write grant ends among the words, those after its end find its places free (04 R72). -/
theorem handed_of_due (hseg : s.acq.seg.isSome = true) (e : Tick) (es : List FifoEntry) (k : Bool)
    (hgrant : s.smc.grant = some ⟨e, .write es k⟩) (hsplit : split ≠ none) (hdue : s.due e = true)
    (hes : ∀ y ∈ es, y.addr < 134217728) :
    let words := handedWords g x n raw s
    let first := words.take (split.getD words.length)
    let second := words.drop (split.getD words.length)
    let held := acceptedWords s.smc.fifo first
    let freed := if k = true then held.drop es.length else held
    (s.handed raw ext apart split g x n).smc = ⟨acceptedWords freed second, none⟩ ∧
      (s.handed raw ext apart split g x n).mem = writeEntries s.mem es ∧
      (s.handed raw ext apart split g x n).acq.seg.map (fun r => r.gapped) = s.acq.seg.map (fun r => r.gapped
        || decide (4096 - s.smc.fifo.length < first.length ∨ 4096 - freed.length < second.length)) := by
  obtain ⟨m, rfl⟩ := Option.ne_none_iff_exists'.mp hsplit
  have hwords := completedWords_fifoEntry raw ext apart g x n s
  have hreached : reached (s.completed raw ext apart g).lastTick e = true := by
    rw [show (s.completed raw ext apart g).lastTick = s.trg.tick from sampled_lastTick raw ext apart s]
    exact hdue
  obtain ⟨hsmc, hmem, hacq⟩ := handGroup_of_due m (s.completedWords raw ext apart g x n) (s.completed raw ext apart g) e es k
    ((congrArg MemCtl.grant (completed_smc raw ext apart g s)).trans hgrant) hreached hes
  rw [hwords, completed_smc] at hsmc hacq
  rw [completed_mem] at hmem
  exact ⟨hsmc, hmem, (congrArg (fun a : Acq => a.seg.map (fun r => r.gapped)) hacq).trans
    (sampled_gapIf_gapped raw ext apart hseg _)⟩

/-! ## The last member's group, counted -/

/-- What the group's count leaves of the memory and the Sample Path, whatever the state (01 R8, R13). -/
theorem groupWritten_keeps (v : State) :
    v.groupWritten.smc = v.smc ∧ v.groupWritten.mem = v.mem ∧ v.groupWritten.acq.seg = v.acq.seg ∧
      v.groupWritten.acq.ordinal = v.acq.ordinal + 1 ∧ v.groupWritten.sp.held = v.sp.held ∧
      v.groupWritten.sp.clipCount = v.sp.clipCount ∧
      (v.sp.groupPos = 0 → v.groupWritten.sp.groupPos = 0) ∧
      (v.sp.acc = PerCh.const none → v.groupWritten.sp.acc = PerCh.const none) := by
  obtain ⟨hframe, hpath, _, hacq⟩ := groupWritten_counted v
  refine ⟨hframe.2 .smc (by decide), hframe.2 .mem (by decide), by rw [hacq], by rw [hacq], ?_⟩
  rcases hpath with e | e
  · rw [e]
    exact ⟨rfl, rfl, id, id⟩
  · rw [e]
    exact ⟨rfl, rfl, fun _ => rfl, fun _ => rfl⟩

end

section

variable (raw : PerCh (BitVec 10)) (ext apart : Bool) (split : Option Nat) {g : Grouping} {x : Captured} (n : Nat)
  {s : State}

/-- A last member's group is handed and counted (01 R12). -/
theorem joinGroup_eq_handed (hg : s.sp.grouping = some g) (hx : s.acq.captured = some x) (hn : s.acq.cur = some n)
    (h : g.decim ≤ s.sp.groupPos + 1) :
    (s.sampled raw ext apart).joinGroup (s.correctAll raw) split =
      (s.handed raw ext apart split g x n).groupWritten := by
  have hacq := (sampled_examined raw ext apart s).acq
  have hsp := sampled_sp raw ext apart s
  exact joinGroup_of_last split (by rw [hsp]; exact hg) (by rw [hsp]; exact h) (by rw [hacq]; exact hn)
    (by rw [hacq]; exact hx)

/-- Outside READY the tick is all a sample does before it joins its group. -/
theorem sampled_of_not_ready (hs : s.acq.state ≠ .ready) :
    s.sampled raw ext apart = s.takeSample raw (s.correctAll raw) ext := trySample_of_not_ready _ _ _ hs

/-- A sample taken in `s` whose group counts towards the pretrigger `x.pre` leaves `t`: with the pretrigger's last group READY
is entered, where the auto timer starts in AUTO and the sequencer is enabled where no holdoff runs (02 R31, R38, 03 R48). -/
def countedInArming (x : Captured) (s t : State) : Prop :=
  t.acq.fill = s.acq.fill + 1 ∧ t.sp.grouping = s.sp.grouping ∧
    (s.acq.fill + 1 < x.pre → t.acq.state = .arming) ∧
    (x.pre ≤ s.acq.fill + 1 → t.acq.state = .ready ∧
      t.trg.autoStart = (if s.w.auto = true then some s.trg.tick else none) ∧
      (s.trg.holdoff ≠ none → t.trg.enabled = s.trg.enabled) ∧
      (s.trg.holdoff = none → t.trg.enabled = true ∧ t.trg.stage = 0 ∧ t.trg.timeout = none ∧
        t.trg.meas = some ⟨none, 0, s.trg.tick⟩ ∧
        t.trg.comps = (List.range s.w.stages).map (fun i => compInit (s.w.stage i) t.sp.codes t.trg.ext)))

/-- A group completed in ARMING counts towards the pretrigger. -/
theorem handed_counted_arming (hx : s.acq.captured = some x) (hs : s.acq.state = .arming) :
    countedInArming x s (s.handed raw ext apart split g x n).groupWritten := by
  have hsampled := sampled_of_not_ready raw ext apart (s := s) (by simp [hs])
  obtain ⟨hsp, htrg, hw, _⟩ := handed_frame raw ext apart split g x n s
  obtain ⟨hcaptured, hfill, _, hstate⟩ := handed_acq raw ext apart split g x n s
  obtain ⟨tsp, tfill, tarming, tready⟩ := groupWritten_arming_spec (s.handed raw ext apart split g x n) x
    (hcaptured.trans hx) (hstate.trans (by rw [hsampled]; exact hs))
  rw [hfill] at tfill tarming tready
  refine ⟨tfill, (congrArg SamplePath.grouping tsp).trans (by rw [hsp]; rfl), tarming, fun hpre => ?_⟩
  obtain ⟨hready, hentered⟩ := tready hpre
  have hext : (s.handed raw ext apart split g x n).groupWritten.trg.ext = (s.handed raw ext apart split g x n).trg.ext :=
    congrArg (fun k => k.2.2.2.1) ((congrArg Trigger.clock hentered).trans (readyEntered_clock _ _ _))
  have htick : (s.handed raw ext apart split g x n).lastTick = s.trg.tick := by
    rw [State.lastTick, htrg]
    exact sampled_lastTick raw ext apart s
  have hholdoff : (s.handed raw ext apart split g x n).trg.holdoff = s.trg.holdoff := by rw [htrg, hsampled]; rfl
  have henabled : (s.handed raw ext apart split g x n).trg.enabled = s.trg.enabled := by rw [htrg, hsampled]; rfl
  refine ⟨hready, ?_, fun h => ?_, fun h => ?_⟩
  · rw [hentered, readyEntered_autoStart, hw, htick]
  · rw [hentered, readyEntered_of_holdoff _ _ _ (hholdoff ▸ h), henabled]
  · have hfree := readyEntered_of_free (s.handed raw ext apart split g x n).w (s.handed raw ext apart split g x n)
      (s.handed raw ext apart split g x n).trg (hholdoff.trans h)
    rw [← hentered, htick, hw] at hfree
    rw [tsp, hext]
    exact hfree

/-- A group completed outside ARMING leaves the fill count; in READY grouping goes on, and in TRIGGERED the group with which
the posttrigger is full ends it (03 R48, R49). -/
theorem handed_counted_filled (hx : s.acq.captured = some x) (hs : (s.sampled raw ext apart).acq.state ≠ .arming) :
    let t := (s.handed raw ext apart split g x n).groupWritten
    t.acq.fill = s.acq.fill ∧ t.acq.state = (s.sampled raw ext apart).acq.state ∧
      (t.acq.state = .ready → t.sp.grouping = s.sp.grouping) ∧
      (∀ (r : SegRec) (f : FireRec), t.acq.state = .triggered → t.acq.seg = some r → r.fire = some f →
        t.sp.grouping = if f.ordinal + (x.len - x.pre) ≤ s.acq.ordinal + 1 then none else s.sp.grouping) := by
  obtain ⟨hsp, _, _, _⟩ := handed_frame raw ext apart split g x n s
  obtain ⟨hcaptured, hfill, hordinal, hstate⟩ := handed_acq raw ext apart split g x n s
  have hgrouping : (s.handed raw ext apart split g x n).sp.grouping = s.sp.grouping := by rw [hsp]; rfl
  have hacq := groupWritten_acq_of_not_arming (s.handed raw ext apart split g x n) (hstate ▸ hs)
  intro t
  have tstate : t.acq.state = (s.handed raw ext apart split g x n).acq.state := by rw [hacq]
  have tseg : t.acq.seg = (s.handed raw ext apart split g x n).acq.seg := by rw [hacq]
  refine ⟨(congrArg Acq.fill hacq :).trans hfill, tstate.trans hstate, fun h => ?_, fun r f h hr hf => ?_⟩
  · exact (congrArg SamplePath.grouping (groupWritten_sp_of_ready _ (tstate.symm.trans h))).trans hgrouping
  · rw [← hordinal, ← hgrouping]
    exact groupWritten_grouping_of_triggered _ x r f (hcaptured.trans hx) (tstate.symm.trans h) (tseg.symm.trans hr) hf

/-- The course of the segment with a last member's group, by the state the sample meets (02 R31, R38, 03 R48, R49). -/
theorem handed_counted_by_state (hg : s.sp.grouping = some g) (hx : s.acq.captured = some x) :
    let t := (s.handed raw ext apart split g x n).groupWritten
    (s.acq.state = .arming → countedInArming x s t) ∧
    (s.acq.state ≠ .arming → t.acq.fill = s.acq.fill) ∧
    (t.acq.state = .ready → t.sp.grouping = some g) ∧
    (s.acq.state = .triggered → t.acq.state = .triggered) ∧
    (∀ (r : SegRec) (f : FireRec), t.acq.state = .triggered → t.acq.seg = some r → r.fire = some f →
      t.sp.grouping = if f.ordinal + (x.len - x.pre) ≤ s.acq.ordinal + 1 then none else some g) := by
  intro t
  by_cases harming : s.acq.state = .arming
  · have hcounted := handed_counted_arming raw ext apart split (g := g) n hx harming
    have ⟨_, hgrouping, hstill, hready⟩ := hcounted
    refine ⟨fun _ => hcounted, fun h => absurd harming h, fun _ => hgrouping.trans hg, fun h => ?_, fun r f h => ?_⟩
    · rw [harming] at h; cases h
    · rcases Nat.lt_or_ge (s.acq.fill + 1) x.pre with hpre | hpre
      · cases h.symm.trans (hstill hpre)
      · cases h.symm.trans (hready hpre).1
  · have hstate : (s.sampled raw ext apart).acq.state = s.acq.state ∨ (s.sampled raw ext apart).acq.state = .triggered :=
      (sampled_examined raw ext apart s).state
    have hnot : (s.sampled raw ext apart).acq.state ≠ .arming := by
      rcases hstate with e | e <;> rw [e]
      · exact harming
      · decide
    obtain ⟨hfill, hkept, hready, htriggered⟩ := handed_counted_filled raw ext apart split (g := g) n hx hnot
    rw [hg] at hready htriggered
    exact ⟨fun h => absurd h harming, fun _ => hfill, hready,
      fun h => hkept.trans (hstate.elim (fun e => e.trans h) id), htriggered⟩

/-- The clip count after a sample, in the words of 01 R13. -/
theorem countClips_correctAll (raw : PerCh (BitVec 10)) (g : Grouping) (s : State) (count : Nat) :
    countClips count g.chans (s.correctAll raw) = min 65535 (count
      + (g.chans.filter (fun ch => (correct (s.activeEntry ch) (raw.get ch).toNat).2)).length) := by
  simp only [countClips, correctAll_get]

/-- A member that is not its group's last joins and hands nothing (01 R8). -/
theorem sampled_member_joins (hg : s.sp.grouping = some g) (h : s.sp.groupPos + 1 < g.decim) :
    let t := (s.sampled raw ext apart).joinGroup (s.correctAll raw) split
    t.sp = (s.sp.ticked raw (s.correctAll raw)).memberJoined g (s.correctAll raw) ∧ t.smc = s.smc ∧ t.mem = s.mem ∧
      t.acq.ordinal = s.acq.ordinal ∧ t.acq.fill = s.acq.fill ∧ (s.acq.state ≠ .ready → t.acq = s.acq) := by
  have hsp := sampled_sp raw ext apart s
  have hacq := (sampled_examined raw ext apart s).acq
  intro t
  have ht : t = (s.sampled raw ext apart).withSp ((s.sampled raw ext apart).sp.memberJoined g (s.correctAll raw)) :=
    joinGroup_of_inner split (by rw [hsp]; exact hg) (by rw [hsp]; exact h)
  rw [ht]
  refine ⟨by rw [State.withSp_sp, hsp], sampled_smc raw ext apart s, sampled_mem raw ext apart s, ?_, ?_, fun hs => ?_⟩
  · exact (congrArg Acq.ordinal hacq :)
  · exact (congrArg Acq.fill hacq :)
  · rw [sampled_of_not_ready raw ext apart hs]
    rfl

end

end Sys2Proof.Machine

open Sys2Proof Sys2Proof.Machine

/-- Settles O20: a member that is not the last joins alone; the last one's words are handed first, and then the group is
counted by the state it meets. -/
theorem groupsAreHandedWhole : Obligations.GroupsAreHandedWhole := by
  intro a b c d ext split apart g x n s hg hx hn hseg _
  refine ⟨_, exec_sample a b c d ext split apart s, ?_⟩
  generalize portCodes s.sp.held a b c d = raw
  rcases Nat.lt_or_ge (s.sp.groupPos + 1) g.decim with h | h
  · obtain ⟨hsp, hsmc, hmem, hordinal, hfill, hacq⟩ := sampled_member_joins raw ext apart split hg h
    rw [hsp]
    refine ⟨countClips_correctAll raw g s _, fun _ => ⟨hsmc, hmem, rfl, hg, hordinal, hfill, hacq, fun ch hch => ?_⟩,
      fun hlast => absurd h (Nat.not_lt.mpr hlast)⟩
    exact (joinedAcc_get _ _ _ _ hch).trans (by rw [correctAll_get]; rfl)
  · rw [joinGroup_eq_handed raw ext apart split n hg hx hn h]
    obtain ⟨tsmc, tmem, tseg, tordinal, theld, tclips, tpos, tacc⟩ := groupWritten_keeps (s.handed raw ext apart split g x n)
    obtain ⟨hsp, _⟩ := handed_frame raw ext apart split g x n s
    obtain ⟨_, _, hordinal, _⟩ := handed_acq raw ext apart split g x n s
    have hheld : (s.handed raw ext apart split g x n).groupWritten.sp.held = raw := theld.trans (by rw [hsp]; rfl)
    rw [hheld, tclips, tsmc, tmem, tseg, tordinal, hordinal]
    refine ⟨?_, fun hinner => absurd hinner (Nat.not_lt.mpr h), fun _ =>
      ⟨handed_of_due raw ext apart g x n hseg, handed_of_quiet raw ext apart g x n hseg, tpos (by rw [hsp]; rfl),
        tacc (by rw [hsp]; rfl), rfl, ?_⟩⟩
    · rw [hsp]
      exact countClips_correctAll raw g s _
    · obtain ⟨harming, hfill, hready, htriggered, hended⟩ := handed_counted_by_state raw ext apart split n hg hx
      rw [tseg] at hended
      rw [countedInArming, hg] at harming
      exact ⟨harming, hfill, hready, htriggered, hended⟩
end

section
/-!
PROOFS. The state after power-on reset and what the RESET command keeps (09 R177, R178; 10 R191, R199).
-/

namespace Sys2Proof.Machine

/-! ## The invariants at power-on reset -/

/-- Every value of the default setup lies in its catalogue range (08 R146, R162). -/
theorem default_inRange : Setup.default.inRange = true := by decide +kernel

theorem reset_setupsInRange : State.reset.setupsInRange = true := by
  unfold State.setupsInRange
  exact Bool.and_eq_true_iff.mpr ⟨default_inRange, default_inRange⟩

/-- No report waits after power-on reset (10 R198). -/
theorem reset_reportsCoalesced : State.reset.reportsCoalesced :=
  ⟨Nat.zero_le 1, Nat.zero_le 1, fun _ => Nat.zero_le 1⟩

/-- STOPPED with no segment and the sequencer not enabled: the acquisition invariant asks for nothing else (03 R67). -/
theorem reset_acqInv : State.reset.acqInv = true := by
  unfold State.acqInv
  rw [reset_setupsInRange]
  rfl

/-- Four FREE buffers, none listed, drawn or streamed: the pool invariant's clauses hold buffer by buffer (03 R67). -/
theorem reset_poolInv : State.reset.poolInv = true := by
  unfold State.poolInv
  rw [reset_acqInv]
  decide

/-! ## The RESET command -/

/-- A RESET that nothing defers is taken at once (10 R191). -/
theorem takeReset_of_free (tag : Byte) (u : State) (h : u.store.activity = .idle ∨ u.store.activity = .starting) :
    u.takeReset tag = u.commandReset [tag] false := by
  unfold State.takeReset
  rcases h with h | h <;> rw [h]

/-- A RESET in READING or WRITING is deferred behind those already deferred (09 R177). -/
theorem takeReset_of_busy (tag : Byte) (u : State) (h : u.store.activity = .reading ∨ u.store.activity = .writing) :
    u.takeReset tag = u.withStore { u.store with
      deferred := u.store.deferred ++ [tag], deferredByWrite := decide (u.store.activity = .writing) } := by
  unfold State.takeReset
  rcases h with h | h <;> rw [h] <;> rfl

/-- A deferred RESET is due exactly where one waits and the Setup Store is IDLE (09 R177). -/
theorem resetDue_iff (s : State) : s.resetDue = true ↔ s.store.deferred ≠ [] ∧ s.store.activity = .idle := by
  simp [State.resetDue]

/-- A deferred RESET reserves one more place of the response queue (10 R189). -/
theorem reservedPlaces_withStore_deferred (u : State) (tag : Byte) (byWrite : Bool) :
    (u.withStore { u.store with deferred := u.store.deferred ++ [tag], deferredByWrite := byWrite }).reservedPlaces =
      u.reservedPlaces + 1 := by
  simp only [State.reservedPlaces, State.withStore_link, State.withStore_store, List.length_append, List.length_singleton]
  exact (Nat.add_assoc _ _ _).symm

/-- A grant in progress at a reset runs on, no longer counted in the FIFO or wanted (04 R77, log 13). -/
theorem resetGrant_cases (u : State) :
    (u.smc.grant = none → u.resetGrant = none) ∧
    ∀ g : Grant, u.smc.grant = some g → ∃ h, u.resetGrant = some h ∧ h.ends - 0 = g.ends - u.trg.tick ∧
      h.job = (match g.job with
        | .write es _ => .write es false
        | .draw b _ => .draw b false
        | .readout b _ => .readout b false) := by
  unfold State.resetGrant
  refine ⟨fun h => by rw [h]; rfl, fun g h => ?_⟩
  rw [h]
  refine ⟨⟨u.rebased g.ends, g.job.detach⟩, rfl, BitVec.sub_zero _, ?_⟩
  cases g.job <;> rfl

/-- The frame in transmission falls free as many ticks after the reset as it was to. -/
theorem rebased_lane (u : State) :
    (u.link.lane.map (fun l => { l with ends := u.rebased l.ends })).map (fun l => (l.bytes, l.disparity, l.ends - 0)) =
      u.link.lane.map (fun l => (l.bytes, l.disparity, l.ends - u.trg.tick)) := by
  cases u.link.lane with
  | none => rfl
  | some l => simp [State.rebased]

end Sys2Proof.Machine

open Sys2Proof Sys2Proof.Machine

/-- Settles O13: the values are read off `State.reset`, whose tables are empty, and the invariants are evaluated on it. -/
theorem resetMeetsTheRulesAndTheInvariants : Obligations.ResetMeetsTheRulesAndTheInvariants := by
  refine ⟨?_, reset_setupsInRange, rfl, rfl, rfl, rfl, rfl, rfl, reset_reportsCoalesced, reset_acqInv, reset_poolInv⟩
  refine ⟨fun _ _ => rfl, fun c => ?_, fun c => ?_, rfl, rfl, rfl, rfl, rfl, rfl, rfl, rfl, rfl, rfl, rfl, rfl, rfl, rfl,
    rfl, rfl, fun _ => rfl, rfl, rfl, rfl, rfl, fun c _ _ => ?_, rfl, rfl, rfl, rfl, rfl, fun _ _ => rfl, fun _ _ => rfl,
    fun _ => rfl, fun _ => rfl, fun _ => rfl, fun _ => rfl, rfl, rfl, rfl, rfl, fun _ => ⟨rfl, rfl⟩, rfl, rfl, rfl, rfl,
    rfl, rfl, rfl, rfl, rfl, rfl, rfl⟩ <;> cases c <;> rfl

/-- Settles O15: a RESET is either taken at once, where the reset state is built block by block, or deferred. -/
theorem commandResetKeepsTheTables : Obligations.CommandResetKeepsTheTables := by
  refine ⟨fun tag s u x hx htaken hdue => ?_, fun tag s u h hbusy => ?_⟩
  · have hrun : exec x.1 s = .next (u.commandReset x.2.1 x.2.2) := by
      simp only [List.mem_cons, List.not_mem_nil, or_false] at hx
      rcases hx with rfl | rfl
      · obtain ⟨h, hfree⟩ := htaken rfl
        exact (command_of_takes h (State.takeReset tag)).trans (congrArg _ (takeReset_of_free tag u hfree))
      · obtain ⟨rfl, hidle, hdef⟩ := hdue rfl
        exact if_pos ((resetDue_iff s).mpr ⟨hdef, hidle⟩)
    obtain ⟨hnone, hsome⟩ := resetGrant_cases u
    exact ⟨_, hrun, rfl, rfl, rfl, hnone, hsome, rfl, rfl, rfl, BitVec.sub_zero _, rebased_lane u⟩
  · refine ⟨_, (command_of_takes h (State.takeReset tag)).trans (congrArg _ (takeReset_of_busy tag u hbusy)), ?_, rfl,
      reservedPlaces_withStore_deferred u tag _⟩
    apply onlyTouches_of <;> simp [Block.same]
end

section
/-!
PROOFS. The table loads of the Sample Path and the screen: what each table reads after a load (01 R3; 06 R105, R106, R115).
-/

namespace Sys2Proof

/-! ## Channel numbers -/

theorem Ch.num_pos (c : Ch) : 1 ≤ c.num := by cases c <;> decide

theorem Ch.num_inj {c d : Ch} : c.num = d.num ↔ c = d := by cases c <;> cases d <;> decide

end Sys2Proof

namespace Sys2Proof.Machine

/-! ## Frames of the commands that answer at once -/

/-- A command that replaces the Sample Path and answers touches the two blocks alone. -/
theorem onlyTouches_sp_answer (u : State) (x : SamplePath) (type tag : Byte) (code : ResultCode) (data : List Byte) :
    onlyTouches [.sp, .link] u ((u.withSp x).answer type tag code data) := by
  apply onlyTouches_of <;> simp [Block.same, State.answer]

/-- A command that replaces the Screen Compositor and answers touches the two blocks alone. -/
theorem onlyTouches_comp_answer (u : State) (x : Compositor) (type tag : Byte) (code : ResultCode) (data : List Byte) :
    onlyTouches [.comp, .link] u ((u.withComp x).answer type tag code data) := by
  apply onlyTouches_of <;> simp [Block.same, State.answer]

/-! ## Places of the tables -/

/-- Entries of different channels or ranges stand at different places of the correction table (01, section 1.2). -/
theorem corrKey_inj {c d : Ch} {r q : Nat} (hr : r ≤ 11) (hq : q ≤ 11) :
    corrKey c r = corrKey d q ↔ c = d ∧ r = q := by
  have := c.num_pos
  have := d.num_pos
  rw [← Ch.num_inj]
  unfold corrKey
  omega

/-! ## Colours of a payload -/

/-- Three bytes are one colour (12 R214). -/
theorem coloursOf_length (n : Nat) : ∀ bytes : List Byte, bytes.length = 3 * n → (coloursOf bytes).length = n := by
  induction n with
  | zero => intro bytes h; simp [List.length_eq_zero_iff.mp h, coloursOf]
  | succ n ih =>
    intro bytes h
    match bytes with
    | r :: g :: b :: rest => simpa [coloursOf] using ih rest (by simp at h; omega)

/-- Colour `k` of a payload is made of its three bytes (12 R214). -/
theorem coloursOf_getElem : ∀ (k : Nat) (bytes : List Byte) (h : k < (coloursOf bytes).length),
    (coloursOf bytes)[k] = colourAt bytes k := by
  intro k
  induction k with
  | zero =>
    intro bytes h
    match bytes with
    | r :: g :: b :: rest => rfl
  | succ k ih =>
    intro bytes h
    match bytes with
    | r :: g :: b :: rest =>
      have := ih rest (by simpa [coloursOf] using h)
      simpa [coloursOf, colourAt, Nat.mul_add] using this

/-- A run of colours from place `i` is read back colour by colour. -/
theorem get_setRun_coloursOf (t : Table Colour) (bytes : List Byte) (n i k : Nat) (hlen : bytes.length = 3 * n)
    (hk : k < n) :
    (t.setRun black i (coloursOf bytes)).get black (i + k) = colourAt bytes k := by
  have h : k < (coloursOf bytes).length := by rwa [coloursOf_length n bytes hlen]
  rw [Table.get_setRun_inside black _ t i k h, coloursOf_getElem k bytes h]

/-- Replacing a channel's 16 colours changes the reads of that channel alone (06 R105). -/
theorem clutColour_setRun (x : Compositor) (c d : Ch) (bytes : List Byte) (band : Nat) (hlen : bytes.length = 48)
    (hb : band < 16) :
    Compositor.clutColour { x with clut := x.clut.setRun black ((c.num - 1) * 16) (coloursOf bytes) } d band =
      if d = c then colourAt bytes band else x.clutColour d band := by
  unfold Compositor.clutColour
  by_cases h : d = c
  · rw [if_pos h, h]
    exact get_setRun_coloursOf x.clut bytes 16 _ band hlen hb
  · have hne : d.num ≠ c.num := fun e => h (Ch.num_inj.mp e)
    have := c.num_pos
    have := d.num_pos
    rw [if_neg h]
    exact Table.get_setRun_outside _ _ _ _ _ (by rw [coloursOf_length 16 bytes hlen]; omega)

/-- Replacing the 20 rows of a glyph of glyph RAM changes the rows of that glyph alone (06 R115). -/
theorem glyphRow_setRun (x : Compositor) (a code j : Nat) (rows : List Byte) (hlen : rows.length = 20) (ha : 0x80 ≤ a)
    (hj : j < 20) :
    Compositor.glyphRow { x with glyphs := x.glyphs.setRun zeroByte ((a - 0x80) * 20) rows } code j =
      if code = a then rows.getD j 0 else x.glyphRow code j := by
  unfold Compositor.glyphRow
  by_cases h : code = a
  · subst h
    rw [if_neg (by omega), if_neg (by omega), if_neg (by omega), if_pos rfl,
      Table.get_setRun_inside _ _ _ _ j (by omega), List.getD_eq_getElem _ _ (by omega)]
  · have hout : 0x80 ≤ code → (x.glyphs.setRun zeroByte ((a - 0x80) * 20) rows).get zeroByte ((code - 0x80) * 20 + j) =
        x.glyphs.get zeroByte ((code - 0x80) * 20 + j) :=
      fun _ => Table.get_setRun_outside _ _ _ _ _ (by omega)
    rw [if_neg h]
    split
    · rfl
    · split
      · rfl
      · split
        · rfl
        · exact hout (by omega)

/-! ## The four loads -/

/-- LOAD_CORR with values in range (01 R3). -/
theorem takeLoadCorr_of_inRange (tag channel range : Byte) (zero gain : BitVec 16) (u : State) (c : Ch)
    (hc : Ch.ofNum channel.toNat = some c) (hr : range.toNat ≤ 11) (hz : zero.toNat ≤ 1023) (hl : 1024 ≤ gain.toNat)
    (hg : gain.toNat ≤ 8191) :
    u.takeLoadCorr tag channel range zero gain =
      (u.withSp { u.sp with
        corr := u.sp.corr.set corrDefault (corrKey c range.toNat) ⟨zero.toNat, gain.toNat, true⟩ }).answer
          0x10 tag .ok [] := by
  simp only [State.takeLoadCorr, hc]
  rw [if_neg (by omega)]

/-- LOAD_CORR with a value outside its range (01 R3). -/
theorem takeLoadCorr_of_outside (tag channel range : Byte) (zero gain : BitVec 16) (u : State)
    (h : Ch.ofNum channel.toNat = none ∨ 11 < range.toNat ∨ 1023 < zero.toNat ∨ gain.toNat < 1024 ∨ 8191 < gain.toNat) :
    u.takeLoadCorr tag channel range zero gain = u.answer 0x10 tag .range [] := by
  unfold State.takeLoadCorr
  cases hc : Ch.ofNum channel.toNat with
  | none => rfl
  | some c =>
    simp only [hc, reduceCtorEq, false_or] at h
    simp only [if_pos h]

/-- An entry after LOAD_CORR of a channel's range (01 R3). -/
theorem entry_set (p : SamplePath) (c d : Ch) (r q : Nat) (v : CorrEntry) (hr : r ≤ 11) (hq : q ≤ 11) :
    SamplePath.entry { p with corr := p.corr.set corrDefault (corrKey c r) v } d q =
      if d = c ∧ q = r then v else p.entry d q := by
  unfold SamplePath.entry
  rw [Table.get_set]
  simp only [corrKey_inj hq hr]

/-- LOAD_CORR in range loads its one entry (01 R3). -/
theorem loadCorr_loads (tag channel range : Byte) (zero gain : BitVec 16) (s u : State)
    (h : takes (.loadCorr tag channel range zero gain) s u) (c : Ch) (hc : Ch.ofNum channel.toNat = some c)
    (hr : range.toNat ≤ 11) (hz : zero.toNat ≤ 1023) (hl : 1024 ≤ gain.toNat) (hg : gain.toNat ≤ 8191) :
    ∃ t, exec (.loadCorr tag channel range zero gain) s = .next t ∧ responds 0x10 tag .ok [] u t ∧
      onlyTouches [.sp, .link] u t ∧ t.sp = { u.sp with corr := t.sp.corr } ∧
      ∀ (c' : Ch) (r : Nat), r ≤ 11 →
        t.sp.entry c' r = if c' = c ∧ r = range.toNat then ⟨zero.toNat, gain.toNat, true⟩ else u.sp.entry c' r := by
  have hrun := takeLoadCorr_of_inRange tag channel range zero gain u c hc hr hz hl hg
  exact ⟨_, (command_of_takes h (State.takeLoadCorr tag channel range zero gain)).trans (congrArg _ hrun), rfl,
    onlyTouches_sp_answer .., rfl, fun c' r hr' => entry_set _ _ _ _ _ _ hr hr'⟩

/-- LOAD_CLUT loads its channel's colours (06 R105). -/
theorem loadClut_loads (tag a : Byte) (bytes : List Byte) (s u : State) (h : takes (.loadClut tag a bytes) s u) (c : Ch)
    (hc : Ch.ofNum a.toNat = some c) :
    ∃ t, exec (.loadClut tag a bytes) s = .next t ∧ responds 0x11 tag .ok [] u t ∧ onlyTouches [.comp, .link] u t ∧
      t.comp = { u.comp with clut := t.comp.clut } ∧
      ∀ (c' : Ch) (band : Nat), band < 16 →
        t.comp.clutColour c' band = if c' = c then colourAt bytes band else u.comp.clutColour c' band := by
  have hlen : bytes.length = 48 := of_decide_eq_true h.1
  have hrun : u.takeLoadClut tag a bytes =
      (u.withComp { u.comp with clut := u.comp.clut.setRun black ((c.num - 1) * 16) (coloursOf bytes) }).answer
        0x11 tag .ok [] := by
    simp only [State.takeLoadClut, hc]
  exact ⟨_, (command_of_takes h (State.takeLoadClut tag a bytes)).trans (congrArg _ hrun), rfl,
    onlyTouches_comp_answer .., rfl, fun c' band hb => clutColour_setRun _ _ _ _ _ hlen hb⟩

/-- LOAD_PALETTE loads the fixed colours (06 R106). -/
theorem loadPalette_loads (tag : Byte) (bytes : List Byte) (s u : State) (h : takes (.loadPalette tag bytes) s u) :
    ∃ t, exec (.loadPalette tag bytes) s = .next t ∧ responds 0x12 tag .ok [] u t ∧ onlyTouches [.comp, .link] u t ∧
      t.comp = { u.comp with palette := t.comp.palette } ∧ ∀ i < 8, t.comp.paletteColour i = colourAt bytes i := by
  have hlen : bytes.length = 24 := of_decide_eq_true h.1
  refine ⟨_, command_of_takes h (State.takeLoadPalette tag bytes), rfl, onlyTouches_comp_answer .., rfl, fun i hi => ?_⟩
  have := get_setRun_coloursOf u.comp.palette bytes 8 0 i hlen hi
  rwa [Nat.zero_add] at this

/-- LOAD_GLYPH loads its glyph's rows (06 R115). -/
theorem loadGlyph_loads (tag a : Byte) (bytes : List Byte) (s u : State) (h : takes (.loadGlyph tag a bytes) s u)
    (ha : 0x80 ≤ a.toNat) :
    ∃ t, exec (.loadGlyph tag a bytes) s = .next t ∧ responds 0x13 tag .ok [] u t ∧ onlyTouches [.comp, .link] u t ∧
      t.comp = { u.comp with glyphs := t.comp.glyphs } ∧
      ∀ (code j : Nat), j < 20 →
        t.comp.glyphRow code j = if code = a.toNat then bytes.getD j 0 else u.comp.glyphRow code j := by
  have hlen : bytes.length = 20 := of_decide_eq_true h.1
  have hrun : u.takeLoadGlyph tag a bytes =
      (u.withComp { u.comp with glyphs := u.comp.glyphs.setRun zeroByte ((a.toNat - 0x80) * 20) bytes }).answer
        0x13 tag .ok [] := if_neg (by omega)
  exact ⟨_, (command_of_takes h (State.takeLoadGlyph tag a bytes)).trans (congrArg _ hrun), rfl,
    onlyTouches_comp_answer .., rfl, fun code j hj => glyphRow_setRun _ _ _ _ _ hlen ha hj⟩

end Sys2Proof.Machine

open Sys2Proof Sys2Proof.Machine

/-- Settles O36: each load replaces the run of places it addresses, and tables read elsewhere as before. -/
theorem sampleAndScreenTablesLoad : Obligations.SampleAndScreenTablesLoad := by
  refine ⟨fun tag channel range zero gain s u h => ⟨loadCorr_loads tag channel range zero gain s u h, fun hout => ?_⟩,
    fun tag a bytes s u => ⟨fun h => ⟨loadClut_loads tag a bytes s u h, fun hnone => ?_⟩,
      loadPalette_loads tag bytes s u, fun h => ⟨loadGlyph_loads tag a bytes s u h, fun hlow => ?_⟩⟩⟩
  · exact (command_of_takes h (State.takeLoadCorr tag channel range zero gain)).trans
      (congrArg _ (takeLoadCorr_of_outside _ _ _ _ _ u hout))
  · exact (command_of_takes h (State.takeLoadClut tag a bytes)).trans
      (congrArg _ (by simp only [State.takeLoadClut, hnone]; rfl))
  · exact (command_of_takes h (State.takeLoadGlyph tag a bytes)).trans (congrArg _ (if_pos hlow))
end

section
/-!
PROOFS. The screen's ticks: decay of the persistence planes (05 R92), the frame tick (06 R99 to R101, R108, R109) and the
backlight output (06 R119).
-/

namespace Sys2Proof

/-! ## Reading a plane whose cells were mapped -/

/-- No cell beyond a place is listed for it. -/
theorem Table.find_eq_none_of_beyond {α : Type} (i : Nat) (l : List (Nat × α))
    (h : l.all (fun c => decide (i < c.1)) = true) : Table.find l i = none := by
  induction l with
  | nil => rfl
  | cons c rest ih =>
    obtain ⟨k, w⟩ := c
    simp only [List.all_cons, Bool.and_eq_true, decide_eq_true_eq] at h
    obtain ⟨hk, hrest⟩ := h
    rw [Table.find, if_neg (Nat.ne_of_gt hk), ih hrest]

/-- With places strictly rising, mapping the values by a function that keeps 0 maps every read. A cell that falls to 0 is
dropped, and no later cell takes its place. -/
theorem Table.get_mapNat (f : Nat → Nat) (hf : f 0 = 0) (i : Nat) (t : Table Nat) (h : Table.rising t.cells = true) :
    (t.mapNat f).get Machine.cellDefault i = f (t.get Machine.cellDefault i) := by
  obtain ⟨l⟩ := t
  induction l with
  | nil => exact hf.symm
  | cons c rest ih =>
    obtain ⟨k, v⟩ := c
    obtain ⟨hbeyond, hrest⟩ := Bool.and_eq_true_iff.mp h
    have ih := ih hrest
    simp only [Table.get, Table.mapNat, Machine.cellDefault, List.map_cons, List.filter_cons, Table.find] at ih ⊢
    by_cases hk : k = i
    · subst hk
      rw [Table.find_eq_none_of_beyond k rest hbeyond, Option.getD_none, hf] at ih
      by_cases hv : f v = 0
      · simpa [hv] using ih
      · simp [hv, Table.find]
    · rw [if_neg hk, ← ih]
      split
      · rw [Table.find, if_neg hk]
      · rfl

end Sys2Proof

namespace Sys2Proof.Machine

/-! ## Decay (05 R92) -/

/-- A dark cell stays dark (05 R92). -/
theorem decayed_zero (k : Nat) : decayed k 0 = 0 := Nat.zero_sub _

/-- Every plane of a state in canonical form lists its cells in rising order. -/
theorem planes_rising_of_canonical {s : State} (h : s.canonical = true) (c : Ch) :
    Table.rising (s.planes.get c).cells = true := by
  have hwf : (s.planes.get c).wf cellDefault = true := by
    simp only [State.canonical, PerCh.all, Bool.and_eq_true] at h
    cases c <;> simp only [PerCh.get, h]
  exact (Bool.and_eq_true_iff.mp hwf).1

/-- Decay of the planes changes every cell by the rule (05 R92). -/
theorem decayPlanes_get (k : Nat) (s : State) (h : s.canonical = true) (c : Ch) (i : Nat) :
    ((decayPlanes k s.planes).get c).get cellDefault i = decayed k ((s.planes.get c).get cellDefault i) := by
  rw [decayPlanes, PerCh.get_of]
  exact Table.get_mapNat _ (decayed_zero k) i _ (planes_rising_of_canonical h c)

/-- The planes after a frame tick's decay (05 R91, R92). -/
def State.tickedPlanes (s : State) : PerCh (Table Nat) :=
  if s.w.persist = .variable then decayPlanes s.w.decay s.planes else s.planes

/-- A frame tick's decay replaces the planes alone (05 R91, R92). -/
theorem decayTick_eq_withPlanes (s : State) : s.decayTick = s.withPlanes s.tickedPlanes := by
  unfold State.decayTick State.tickedPlanes
  split <;> rfl

/-! ## Frame ticks (06 R99 to R101, R108, R109) -/

/-- A frame tick that is due starts a frame of the Compositor and replaces the planes (06 R100). -/
theorem exec_frameTick_of_due (s : State) (h : s.due (frameTickAt s.comp.nextFrame) = true) :
    exec .frameTick s = .next ((s.withComp (s.comp.startFrame s.w)).withPlanes s.tickedPlanes) :=
  (if_pos h).trans (congrArg _ (decayTick_eq_withPlanes (s.withComp (s.comp.startFrame s.w))))

theorem onlyTouches_comp_planes (s : State) (x : Compositor) (p : PerCh (Table Nat)) :
    onlyTouches [.comp, .planes] s ((s.withComp x).withPlanes p) := by
  apply onlyTouches_of <;> simp [Block.same]

/-- A channel's ground marker stands at the row of value 0, where the channel is enabled (06 R108). -/
theorem groundMarkers_get (w : Setup) (c : Ch) :
    (groundMarkers w).get c = if w.enabled c then some ⟨planeRow 0 (w.pos c), rowHeld 0 (w.pos c)⟩ else none :=
  PerCh.get_of _ c

/-! ## Backlight (06 R119) -/

theorem onlyTouches_comp (s : State) (x : Compositor) : onlyTouches [.comp] s (s.withComp x) := by
  apply onlyTouches_of <;> simp [Block.same]

/-- What a backlight period sets: a level of 0 or 255 has no end of its high time (06 R119). -/
theorem startPeriod_eq (c : Compositor) (level : Nat) (e : Tick) :
    c.startPeriod level e = { c with
      level := level, pwm := decide (0 < level), nextPeriod := e + 51000,
      pwmEnd := if level = 0 ∨ 255 ≤ level then none else some (e + BitVec.ofNat 48 (200 * level)) } := by
  unfold Compositor.startPeriod
  by_cases h : level = 0 ∨ 255 ≤ level
  · rw [if_pos h, if_neg (by omega)]
  · rw [if_neg h, if_pos (by omega), ticks]

end Sys2Proof.Machine

open Sys2Proof Sys2Proof.Machine

/-- Settles O33: the frame tick is the Compositor's start of a frame and the planes' decay, each cell of which is read
through `decayPlanes_get`. -/
theorem framesAndBacklightFollowTheirTicks : Obligations.FramesAndBacklightFollowTheirTicks := by
  refine ⟨fun s hdue => ⟨_, exec_frameTick_of_due s hdue, onlyTouches_comp_planes s _ _, rfl, decide_eq_true_iff,
    decide_eq_true_iff, groundMarkers_get s.w, rfl, fun hkept => if_neg hkept, fun hvar hcanon c x r => ?_⟩,
    fun s => ⟨fun hdue => ⟨_, if_pos hdue, onlyTouches_comp s _, startPeriod_eq s.comp _ _⟩, fun e he hdue => ?_⟩⟩
  · have hplanes : s.tickedPlanes = decayPlanes s.w.decay s.planes := if_pos hvar
    rw [hplanes]
    exact decayPlanes_get s.w.decay s hcanon c (cellKey x r)
  · have hdue' : s.dueOpt s.comp.pwmEnd = true := by rw [he]; exact hdue
    exact ⟨_, if_pos hdue', onlyTouches_comp s _, rfl⟩
end

section
/-!
PROOFS. The commands CURSOR, PANEL_MODE, CLEAR_PERSIST and ALARM (05 R95; 06 R117; 07 R137, R144).
-/

namespace Sys2Proof.Machine

/-! ## Frames of the commands that answer at once -/

/-- A command that replaces the panel and answers touches the two blocks alone. -/
theorem onlyTouches_panel_answer (u : State) (x : Panel) (type tag : Byte) (code : ResultCode) (data : List Byte) :
    onlyTouches [.panel, .link] u ((u.withPanel x).answer type tag code data) := by
  apply onlyTouches_of <;> simp [Block.same, State.answer]

/-- A command that replaces the planes and answers touches the two blocks alone. -/
theorem onlyTouches_planes_answer (u : State) (x : PerCh (Table Nat)) (type tag : Byte) (code : ResultCode)
    (data : List Byte) : onlyTouches [.planes, .link] u ((u.withPlanes x).answer type tag code data) := by
  apply onlyTouches_of <;> simp [Block.same, State.answer]

/-! ## Codes outside their range (12 R214) -/

theorem yesNo_eq_none_iff (n : Nat) : yesNo n = none ↔ 1 < n := by
  match n with
  | 0 | 1 | n + 2 => simp [yesNo]

theorem access_ofCode_eq_none_iff (n : Nat) : Access.ofCode n = none ↔ 2 < n := by
  match n with
  | 0 | 1 | 2 | n + 3 => simp [Access.ofCode]

/-! ## CURSOR (06 R117) -/

/-- CURSOR with values in range (06 R117). -/
theorem takeCursor_of_inRange (tag a row column : Byte) (u : State) (on : Bool) (ha : yesNo a.toNat = some on)
    (hr : row.toNat ≤ 23) (hc : column.toNat ≤ 99) :
    u.takeCursor tag a row column =
      (u.withComp { u.comp with cursor := ⟨on, row.toNat, column.toNat⟩ }).answer 0x52 tag .ok [] := by
  simp only [State.takeCursor, ha]
  rw [if_neg (by omega)]

/-- CURSOR with a value outside its range (06 R117). -/
theorem takeCursor_of_outside (tag a row column : Byte) (u : State)
    (h : 1 < a.toNat ∨ 23 < row.toNat ∨ 99 < column.toNat) :
    u.takeCursor tag a row column = u.answer 0x52 tag .range [] := by
  rw [← yesNo_eq_none_iff] at h
  unfold State.takeCursor
  cases ha : yesNo a.toNat with
  | none => rfl
  | some on =>
    simp only [ha, reduceCtorEq, false_or] at h
    simp only [if_pos h]

/-! ## PANEL_MODE (07 R137) -/

/-- PANEL_MODE with an access state of the table (07 R137). -/
theorem takePanelMode_of_some (tag a : Byte) (u : State) (x : Access) (h : Access.ofCode a.toNat = some x) :
    u.takePanelMode tag a = (u.withPanel { u.panel with access := x }).answer 0x53 tag .ok [] := by
  simp only [State.takePanelMode, h]

/-- PANEL_MODE with a value beyond the table (07 R137). -/
theorem takePanelMode_of_outside (tag a : Byte) (u : State) (h : 2 < a.toNat) :
    u.takePanelMode tag a = u.answer 0x53 tag .range [] := by
  simp only [State.takePanelMode, (access_ofCode_eq_none_iff _).mpr h]

/-! ## CLEAR_PERSIST (05 R95) -/

/-- Every cell of planes that were all cleared reads 0 (05 R95). -/
theorem clearPlanes_all_get (p : PerCh (Table Nat)) (c : Ch) (i : Nat) :
    ((clearPlanes p Ch.all).get c).get cellDefault i = 0 := by
  have hc : c ∈ Ch.all := by cases c <;> decide
  rw [clearPlanes, PerCh.get_of, if_pos hc, Table.get_empty, cellDefault]

/-! ## ALARM (07 R144) -/

/-- ALARM ON while the flag is OFF sounds the alarm for 250 ms (07 R144). -/
theorem setAlarm_sounds (u : State) (h : u.panel.alarm = false) :
    u.setAlarm true =
      u.withPanel { u.panel with alarm := true, alarmEnd := some (u.lastTick + 250000000#48), click := none } := by
  rw [State.setAlarm, h]
  rfl

/-- ALARM ON while the flag is ON changes nothing (07 R144). -/
theorem setAlarm_of_on (u : State) (h : u.panel.alarm = true) : u.setAlarm true = u := by
  have hsame : { u.panel with alarm := true } = u.panel := by rw [← h]
  rw [State.setAlarm, h, if_neg (by decide), hsame]
  rfl

/-- ALARM OFF clears the flag alone (07 R144). -/
theorem setAlarm_off (u : State) : u.setAlarm false = u.withPanel { u.panel with alarm := false } := rfl

/-- ALARM with an on/off value sets the flag and answers (07 R144). -/
theorem takeAlarm_of_some (tag value : Byte) (u : State) (on : Bool) (h : yesNo value.toNat = some on) :
    u.takeAlarm tag value = (u.setAlarm on).answer 0x55 tag .ok [] := by
  simp only [State.takeAlarm, h]

/-- ALARM with another value (07 R144). -/
theorem takeAlarm_of_outside (tag value : Byte) (u : State) (h : 1 < value.toNat) :
    u.takeAlarm tag value = u.answer 0x55 tag .range [] := by
  simp only [State.takeAlarm, (yesNo_eq_none_iff _).mpr h]

/-- ALARM taken with an on/off value runs to the flag set and the answer (07 R144). -/
theorem exec_alarm_of_takes {tag value : Byte} {s u : State} (h : takes (.alarm tag value) s u) (on : Bool)
    (hv : yesNo value.toNat = some on) :
    exec (.alarm tag value) s = .next ((u.setAlarm on).answer 0x55 tag .ok []) :=
  (command_of_takes h (State.takeAlarm tag value)).trans (congrArg _ (takeAlarm_of_some tag value u on hv))

end Sys2Proof.Machine

open Sys2Proof Sys2Proof.Machine

/-- Settles O38: each command, taken, runs to its own effect, in range and outside it; ALARM is split by its value and by
the flag it finds. -/
theorem cursorModeAlarmAndClearTakeEffect : Obligations.CursorModeAlarmAndClearTakeEffect := by
  refine ⟨fun tag a row column s u => ⟨fun h => ?cursor, fun h => ?mode, fun h => ?clear⟩,
    fun tag value s u h => ⟨fun hv hoff => ?sound, fun hv hon => ?already, fun hv => ?off, fun hout => ?range⟩⟩
  case cursor =>
    have hrun := command_of_takes h (State.takeCursor tag a row column)
    exact ⟨fun on ha hr hc => ⟨_, hrun.trans (congrArg _ (takeCursor_of_inRange tag a row column u on ha hr hc)), rfl,
      onlyTouches_comp_answer .., rfl⟩,
      fun hout => hrun.trans (congrArg _ (takeCursor_of_outside tag a row column u hout))⟩
  case mode =>
    have hrun := command_of_takes h (State.takePanelMode tag a)
    exact ⟨fun x hx => ⟨_, hrun.trans (congrArg _ (takePanelMode_of_some tag a u x hx)), rfl,
      onlyTouches_panel_answer .., rfl⟩,
      fun hout => hrun.trans (congrArg _ (takePanelMode_of_outside tag a u hout))⟩
  case clear =>
    exact ⟨_, command_of_takes h (State.takeClearPersist tag), rfl, onlyTouches_planes_answer ..,
      fun c x r => clearPlanes_all_get u.planes c (cellKey x r)⟩
  case sound =>
    have hrun := exec_alarm_of_takes h true (by rw [hv]; rfl)
    rw [setAlarm_sounds u hoff] at hrun
    exact ⟨_, hrun, rfl, onlyTouches_panel_answer .., rfl, rfl⟩
  case already =>
    have hrun := exec_alarm_of_takes h true (by rw [hv]; rfl)
    rwa [setAlarm_of_on u hon] at hrun
  case off =>
    have hrun := exec_alarm_of_takes h false (by rw [hv]; rfl)
    rw [setAlarm_off u] at hrun
    exact ⟨_, hrun, rfl, onlyTouches_panel_answer .., rfl⟩
  case range =>
    exact (command_of_takes h (State.takeAlarm tag value)).trans (congrArg _ (takeAlarm_of_outside tag value u hout))
end

section
/-!
PROOFS. TEXT (06 R116), the flow of the codes' flags along the overlay's rows (06 R111, R112), and the overlay's pixels
(06 R113 to R115).
-/

namespace Sys2Proof.Machine

/-! ## TEXT (06 R116) -/

/-- A run of bytes written into a table changes the reads of its own places alone. -/
theorem get_setRun_eq_ite (t : Table Byte) (start i : Nat) (bytes : List Byte) :
    (t.setRun zeroByte start bytes).get zeroByte i =
      if start ≤ i ∧ i < start + bytes.length then bytes.getD (i - start) 0 else t.get zeroByte i := by
  split
  · next h =>
    have hi : i - start < bytes.length := by omega
    have := Table.get_setRun_inside zeroByte bytes t start (i - start) hi
    rwa [Nat.add_sub_cancel' h.1, ← List.getD_eq_getElem _ 0 hi] at this
  · next h => exact Table.get_setRun_outside _ _ _ _ _ (by omega)

/-- The overlay's codes after a run of at most `m` bytes of a list is written (06 R116). -/
theorem codeAt_setRun_take (x : Compositor) (start m row col : Nat) (codes : List Byte) :
    Compositor.codeAt { x with text := x.text.setRun zeroByte start (codes.take m) } row col =
      if start ≤ 100 * row + col ∧ 100 * row + col < start + min codes.length m then
        (codes.getD (100 * row + col - start) 0).toNat
      else x.codeAt row col := by
  unfold Compositor.codeAt
  rw [get_setRun_eq_ite, List.length_take, Nat.min_comm m]
  split
  · next h =>
    rw [List.getD_eq_getElem?_getD, List.getD_eq_getElem?_getD, List.getElem?_take_of_lt (by omega)]
  · rfl

/-- TEXT from a cell of the overlay (06 R116). -/
theorem takeText_of_inside (tag row column : Byte) (codes : List Byte) (u : State) (hr : row.toNat ≤ 23)
    (hc : column.toNat ≤ 99) :
    let room := 2400 - (100 * row.toNat + column.toNat)
    u.takeText tag row column codes =
      (u.withComp { u.comp with
        text := u.comp.text.setRun zeroByte (100 * row.toNat + column.toNat) (codes.take room) }).answer 0x51 tag
        (if codes.length ≤ room then .ok else .clamped) (beBytes 2 (min codes.length room)) := by
  intro room
  rw [State.takeText, if_neg (by omega)]
  simp only [List.length_take, Nat.min_comm _ codes.length, min_eq_left_iff, room]

/-- The answer to a TEXT whose codes all fit, or fit in part, carries its data (06 R116). -/
theorem responds_answer_of_written (u : State) (x : Compositor) (type tag : Byte) (data : List Byte) (fits : Prop)
    [Decidable fits] :
    let code : ResultCode := if fits then .ok else .clamped
    responds type tag code data u ((u.withComp x).answer type tag code data) := by
  intro code
  have hcode : code = .ok ∨ code = .clamped := by
    by_cases h : fits
    · exact .inl (if_pos h)
    · exact .inr (if_neg h)
  obtain h | h := hcode <;> rw [h] <;> rfl

/-! ## Codes that set flags (06 R111, R112) -/

/-- Each code's effect on the five flags (06 R111). -/
theorem attrStep_flags (a : Attr) (code : Nat) :
    attrStep a code =
      { half := if code = 0x01 then true else if code = 0x02 ∨ code = 0x0B then false else a.half
        inverse := if code = 0x03 then true else if code = 0x04 ∨ code = 0x0B then false else a.inverse
        underline := if code = 0x05 then true else if code = 0x06 ∨ code = 0x0B then false else a.underline
        blank := if code = 0x07 then true else if code = 0x08 ∨ code = 0x0B then false else a.blank
        blink := if code = 0x09 then true else if code = 0x0A ∨ code = 0x0B then false else a.blink } := by
  match code with
  | 0 | 1 | 2 | 3 | 4 | 5 | 6 | 7 | 8 | 9 | 10 | 11 => rfl
  | n + 12 => simp [attrStep]

/-- One more cell of a row adds the effect of its code (06 R112). -/
theorem flow_succ (c : Compositor) (row n : Nat) (a : Attr) :
    c.flow row (n + 1) a = attrStep (c.flow row n a) (c.codeAt row n) := by
  simp only [Compositor.flow, List.range_succ, List.foldl_append, List.foldl_cons, List.foldl_nil]

/-- The starting sets as the pixel at (row, col) leaves them (06 R112). -/
def Compositor.formedRowSets (c : Compositor) (w : Setup) (row col : Nat) : Table Attr :=
  if row % 20 = 0 ∧ col = 0 then c.rowSets.set attrDefault (row / 20) (c.formedRowSet w (row / 20)) else c.rowSets

/-- The set in force as the pixel at (row, col) leaves it (06 R112). -/
def Compositor.formedCellSet (c : Compositor) (w : Setup) (row col : Nat) : Attr :=
  if col % 8 = 0 then c.flow (row / 20) (col / 8) ((c.formedRowSets w row col).get attrDefault (row / 20))
  else c.cellSet

/-- Forming the sets in force replaces nothing else of the Compositor (06 R112). -/
theorem formSets_eq (c : Compositor) (w : Setup) (row col : Nat) :
    c.formSets w row col =
      { c with rowSets := c.formedRowSets w row col, cellSet := c.formedCellSet w row col } := by
  unfold Compositor.formSets Compositor.formedCellSet Compositor.formedRowSets
  by_cases hrow : row % 20 = 0 ∧ col = 0 <;> by_cases hcell : col % 8 = 0 <;>
    simp only [hrow, hcell, if_true, if_false, true_and] <;> rfl

/-- A row's starting set is replaced at its first pixel alone (06 R112). -/
theorem formedRowSets_get (c : Compositor) (w : Setup) (row col R : Nat) :
    (c.formedRowSets w row col).get attrDefault R =
      if row % 20 = 0 ∧ col = 0 ∧ R = row / 20 then
        (if R = 0 then w.textAttr else c.flow (R - 1) 100 (c.rowSet (R - 1)))
      else c.rowSet R := by
  unfold Compositor.formedRowSets
  by_cases hfirst : row % 20 = 0 ∧ col = 0
  · obtain ⟨hrow, hcol⟩ := hfirst
    simp only [hrow, hcol, and_self, if_true, true_and, Table.get_set]
    split
    · next hR => rw [hR]; rfl
    · rfl
  · have hno : ¬(row % 20 = 0 ∧ col = 0 ∧ R = row / 20) := fun ⟨hrow, hcol, _⟩ => hfirst ⟨hrow, hcol⟩
    rw [if_neg hfirst, if_neg hno]
    rfl

/-! ## The overlay (06 R113 to R115) -/

/-- When a pixel of a cell is lit (06 R113). -/
theorem litPixel_iff (c : Compositor) (a : Attr) (code j i : Nat) :
    c.litPixel a code j i = true ↔
      ((c.glyphRow code j).getLsbD (7 - i) = true ∨ a.underline = true ∧ j = 19) ∧
        ¬(a.blink = true ∧ c.slow = false) := by
  simp [Compositor.litPixel, imp_iff_not_or]

/-- A cell of the empty code or under BLANK has no overlay (06 R111, R113). -/
theorem overlayLayer_of_empty (c : Compositor) (row col : Nat)
    (h : c.codeAt (row / 20) (col / 8) = 0 ∨ c.cellSet.blank = true) : c.overlayLayer row col = none := if_pos h

/-- A lit pixel of a cell that shows (06 R113, R114). -/
theorem overlayLayer_of_lit (c : Compositor) (row col : Nat) (hcode : c.codeAt (row / 20) (col / 8) ≠ 0)
    (hblank : c.cellSet.blank = false)
    (hlit : c.litPixel c.cellSet (c.codeAt (row / 20) (col / 8)) (row % 20) (col % 8) = true) :
    c.overlayLayer row col = some (if c.cellSet.inverse = true then c.paletteColour 2
      else if c.cellSet.half = true then c.paletteColour 1 else c.paletteColour 0) :=
  (if_neg (by simp [hcode, hblank])).trans (if_pos hlit)

/-- An unlit pixel of a cell that shows (06 R113, R114). -/
theorem overlayLayer_of_unlit (c : Compositor) (row col : Nat) (hcode : c.codeAt (row / 20) (col / 8) ≠ 0)
    (hblank : c.cellSet.blank = false)
    (hlit : ¬c.litPixel c.cellSet (c.codeAt (row / 20) (col / 8)) (row % 20) (col % 8) = true) :
    c.overlayLayer row col = if c.cellSet.inverse = true then
      some (if c.cellSet.half = true then c.paletteColour 1 else c.paletteColour 0) else none :=
  (if_neg (by simp [hcode, hblank])).trans (if_neg hlit)

/-- The codes up to 0x20 show no glyph (06 R111, R115). -/
theorem glyphRow_of_low (c : Compositor) (code j : Nat) (h : code ≤ 0x20) : c.glyphRow code j = 0 := if_pos h

/-- Code 0x7F shows a full cell but for scan row 19 (06 R115). -/
theorem glyphRow_of_full (c : Compositor) (j : Nat) : c.glyphRow 0x7F j = if j ≤ 18 then 0xFF else 0 := rfl

/-- The codes from 0x80 up show glyph RAM (06 R115). -/
theorem glyphRow_of_high (c : Compositor) (code j : Nat) (h : 0x80 ≤ code) :
    c.glyphRow code j = c.glyphs.get zeroByte ((code - 0x80) * 20 + j) := by
  unfold Compositor.glyphRow
  rw [if_neg (by omega), if_neg (by omega), if_neg (by omega)]

/-- Every bit of 0xFF is set. -/
theorem getLsbD_full : ∀ i < 8, (0xFF : Byte).getLsbD i = true := by decide

/-! ## A pixel of the frame (06 R102) -/

theorem exec_pixelFormed_of_scan (s : State) (n : Nat) (h : s.comp.scan = some n) :
    exec .pixelFormed s = .next (s.formPixel n) := by
  change execPixelFormed s = _
  rw [execPixelFormed, h]

/-- Forming a pixel replaces the Compositor alone (06 R102). -/
theorem formPixel_eq (n : Nat) (s : State) :
    let row := n / 800
    let col := n % 800
    s.formPixel n = s.withComp { s.comp with
      rowSets := s.comp.formedRowSets s.w row col
      cellSet := s.comp.formedCellSet s.w row col
      pixel := some ⟨row, col, (s.withComp (s.comp.formSets s.w row col)).pixelColour row col⟩
      scan := if n + 1 < Config.framePixels then some (n + 1) else none } := by
  intro row col
  rw [State.formPixel, formSets_eq]
  rfl

end Sys2Proof.Machine

open Sys2Proof Sys2Proof.Machine

/-- Settles O37: the codes that fit are one run of writes, read back through `codeAt_setRun_take`. -/
theorem textWritesItsRun : Obligations.TextWritesItsRun := by
  intro tag row column codes s u h
  have hrun := command_of_takes h (State.takeText tag row column codes)
  refine ⟨fun hr hc => ?_, fun hout => hrun.trans (congrArg _ (if_pos hout))⟩
  exact ⟨_, hrun.trans (congrArg _ (takeText_of_inside tag row column codes u hr hc)),
    responds_answer_of_written .., onlyTouches_comp_answer .., rfl, fun R C _ => codeAt_setRun_take ..⟩

/-- Settles O35: a cell's pixel by the four cases of the overlay, and the sets in force by the one place where each is
formed. -/
theorem overlayFollowsItsAttributes : Obligations.OverlayFollowsItsAttributes := by
  refine ⟨fun c row col => ?_, fun c row n a => ⟨rfl, flow_succ c row n a⟩, fun a code => ?_, fun n s hscan => ?_⟩
  · intro code a text glyph lit
    have hiff := litPixel_iff c a code (row % 20) (col % 8)
    refine ⟨overlayLayer_of_empty c row col,
      fun hcode hblank => ⟨fun hlit => overlayLayer_of_lit c row col hcode hblank (hiff.mpr hlit),
        fun hunlit => overlayLayer_of_unlit c row col hcode hblank (mt hiff.mp hunlit)⟩,
      fun hlow => ?_, fun hfull => ?_, fun hhigh => ?_⟩
    · simp only [glyph, glyphRow_of_low c code _ hlow, BitVec.ofNat_eq_ofNat, BitVec.getLsbD_zero]
    · simp only [glyph, hfull, glyphRow_of_full]
      split
      · next hj => simp only [hj, iff_true]; exact getLsbD_full _ (by omega)
      · next hj => simp only [hj, BitVec.ofNat_eq_ofNat, BitVec.getLsbD_zero, Bool.false_eq_true]
    · simp only [glyph, glyphRow_of_high c code _ hhigh]
  · rw [attrStep_flags]
    exact ⟨rfl, rfl, rfl, rfl, rfl⟩
  · exact ⟨_, (exec_pixelFormed_of_scan s n hscan).trans (congrArg _ (formPixel_eq n s)),
      formedRowSets_get s.comp s.w _ _, rfl⟩
end

section
/-!
PROOFS. The layers of a pixel (06 R103, R104, R107 to R110, R118).
-/

namespace Sys2Proof.Machine

/-! ## The order of the channels (06 R104) -/

/-- Beyond 23 DSP.ORDER would count within the orders that begin with CH1. -/
theorem drawOrder_of_beyond (n : Nat) (h : 24 ≤ n) : drawOrder n = drawOrder (n % 6) := by
  have hfirst : Ch.all.getD (n / 6) .ch1 = Ch.all.getD (n % 6 / 6) .ch1 := by
    rw [List.getD_eq_default _ _ (show 4 ≤ n / 6 by omega),
      Nat.div_eq_of_lt (Nat.mod_lt n (by decide))]
    rfl
  rw [drawOrder, drawOrder, hfirst, Nat.mod_mod, Nat.mod_mod_of_dvd n (by decide : 2 ∣ 6)]

theorem drawOrder_perm_below : ∀ n < 24, (drawOrder n).Perm Ch.all := by decide

/-- Every channel is drawn once (06 R104). -/
theorem drawOrder_perm (n : Nat) : (drawOrder n).Perm Ch.all := by
  rcases lt_or_ge n 24 with h | h
  · exact drawOrder_perm_below n h
  · rw [drawOrder_of_beyond n h]
    exact drawOrder_perm_below _ (by omega)

theorem mem_drawOrder (n : Nat) (c : Ch) : c ∈ drawOrder n :=
  (drawOrder_perm n).mem_iff.mpr (by cases c <;> decide)

/-- The orders come lexicographically by channel number (06 R104). -/
theorem drawOrder_strictMono : ∀ n < 24, ∀ m < n, (drawOrder m).map Ch.num < (drawOrder n).map Ch.num := by decide

/-! ## The waveform area and the graticule (06 R107) -/

theorem inWaveform_iff (row col : Nat) :
    inWaveform row col = true ↔ 50 ≤ col ∧ col ≤ 749 ∧ 40 ≤ row ∧ row ≤ 439 := decide_eq_true_iff

/-- Beyond the frame's first line, the lines a division apart are the `n` division lines before its last (06 R107). -/
theorem divisionLine_iff (x first d n : Nat) (hlo : first < x) (hhi : x < first + d * (n + 1)) :
    (x - first) % d = 0 ↔ ∃ k, 1 ≤ k ∧ k ≤ n ∧ x = first + d * k := by
  rw [← Nat.dvd_iff_mod_eq_zero]
  constructor
  · rintro ⟨k, hk⟩
    have hpos : 0 < d * k := by omega
    have hlast : d * k < d * (n + 1) := by omega
    exact ⟨k, Nat.pos_of_mul_pos_left hpos, Nat.lt_succ_iff.mp (Nat.lt_of_mul_lt_mul_left hlast), by omega⟩
  · rintro ⟨k, -, -, rfl⟩
    exact ⟨k, Nat.add_sub_cancel_left ..⟩

theorem gridLit_full_iff (row col : Nat) :
    gridLit .full row col = true ↔
      (50 ≤ col ∧ col ≤ 749 ∧ 40 ≤ row ∧ row ≤ 439) ∧ ((col = 50 ∨ col = 749 ∨ row = 40 ∨ row = 439) ∨
        (∃ k, 1 ≤ k ∧ k ≤ 9 ∧ col = 50 + 70 * k) ∨ ∃ k, 1 ≤ k ∧ k ≤ 7 ∧ row = 40 + 50 * k) := by
  simp only [gridLit, Bool.and_eq_true, Bool.or_eq_true, decide_eq_true_eq, inWaveform_iff]
  refine and_congr_right fun ⟨hclo, hchi, hrlo, hrhi⟩ => ?_
  by_cases hframe : col = 50 ∨ col = 749 ∨ row = 40 ∨ row = 439
  · simp only [hframe, true_or]
  · rw [or_assoc, divisionLine_iff col 50 70 9 (by omega) (by omega),
      divisionLine_iff row 40 50 7 (by omega) (by omega)]

theorem gridLit_axes_iff (row col : Nat) :
    gridLit .axes row col = true ↔
      (50 ≤ col ∧ col ≤ 749 ∧ 40 ≤ row ∧ row ≤ 439) ∧
        ((col = 50 ∨ col = 749 ∨ row = 40 ∨ row = 439) ∨ col = 400 ∨ row = 240) := by
  simp only [gridLit, Bool.and_eq_true, Bool.or_eq_true, decide_eq_true_eq, inWaveform_iff, or_assoc]

theorem gridLit_frame_iff (row col : Nat) :
    gridLit .frame row col = true ↔
      (50 ≤ col ∧ col ≤ 749 ∧ 40 ≤ row ∧ row ≤ 439) ∧ (col = 50 ∨ col = 749 ∨ row = 40 ∨ row = 439) := by
  simp only [gridLit, Bool.and_eq_true, decide_eq_true_eq, inWaveform_iff]

theorem gridLit_none (row col : Nat) : gridLit .none row col = false := Bool.and_false _

/-! ## The planes (06 R104) -/

/-- What a channel's plane gives a pixel of the waveform area (06 R104). -/
def State.planeAt (s : State) (row col : Nat) (c : Ch) : Option Colour :=
  if s.cell c (col - 50) (row - 40) = 0 then none
  else some (s.comp.clutColour c (s.cell c (col - 50) (row - 40) / 16))

theorem planeAt_eq_none_iff (s : State) (row col : Nat) (c : Ch) :
    s.planeAt row col c = none ↔ s.cell c (col - 50) (row - 40) = 0 := by
  simp [State.planeAt]

theorem planeAt_eq_some_iff (s : State) (row col : Nat) (c : Ch) (x : Colour) :
    s.planeAt row col c = some x ↔
      s.cell c (col - 50) (row - 40) ≠ 0 ∧ x = s.comp.clutColour c (s.cell c (col - 50) (row - 40) / 16) := by
  simp [State.planeAt, eq_comm]

/-- A pixel of the waveform area where some plane is lit (06 R104). -/
def State.planeLit (s : State) (row col : Nat) : Prop :=
  50 ≤ col ∧ col ≤ 749 ∧ 40 ≤ row ∧ row ≤ 439 ∧ ∃ c : Ch, s.cell c (col - 50) (row - 40) ≠ 0

theorem planeLit_iff (s : State) (row col : Nat) :
    s.planeLit row col ↔ inWaveform row col = true ∧ ∃ c : Ch, s.planeAt row col c ≠ none := by
  simp only [State.planeLit, inWaveform_iff, ne_eq, planeAt_eq_none_iff, and_assoc]

/-- The first lit plane in the order of DSP.ORDER colours the pixel (06 R104). -/
theorem planeLayer_of_lit (s : State) (row col : Nat) (h : s.planeLit row col) :
    ∃ before c after, drawOrder s.w.order = before ++ c :: after ∧ s.cell c (col - 50) (row - 40) ≠ 0 ∧
      (∀ c' ∈ before, s.cell c' (col - 50) (row - 40) = 0) ∧
      s.planeLayer row col = some (s.comp.clutColour c (s.cell c (col - 50) (row - 40) / 16)) := by
  obtain ⟨hin, c, hc⟩ := (planeLit_iff s row col).mp h
  have hlayer : s.planeLayer row col = (drawOrder s.w.order).findSome? (s.planeAt row col) := if_pos hin
  cases hx : (drawOrder s.w.order).findSome? (s.planeAt row col) with
  | none => exact absurd (List.findSome?_eq_none_iff.mp hx c (mem_drawOrder _ c)) hc
  | some x =>
    obtain ⟨before, c, after, horder, hlit, hdark⟩ := List.findSome?_eq_some_iff.mp hx
    obtain ⟨hcell, rfl⟩ := (planeAt_eq_some_iff s row col c x).mp hlit
    exact ⟨before, c, after, horder, hcell, fun c' hc' => (planeAt_eq_none_iff s row col c').mp (hdark c' hc'),
      hlayer.trans hx⟩

theorem planeLayer_of_dark (s : State) (row col : Nat) (h : ¬s.planeLit row col) : s.planeLayer row col = none := by
  rw [planeLit_iff] at h
  by_cases hin : inWaveform row col = true
  · exact (if_pos hin).trans
      (List.findSome?_eq_none_iff.mpr fun c _ => not_not.mp fun hc => h ⟨hin, c, hc⟩)
  · exact if_neg hin

/-! ## The markers (06 R108 to R110) -/

/-- A row at most four from a marker's centre row, by the distance `j` (06 R108, R109). -/
theorem offset_eq_iff (m : Marker) (row j : Nat) :
    m.offset row = j ↔ row = 40 + m.row + j ∨ row + j = 40 + m.row := by
  unfold Marker.offset
  omega

/-- A ground marker is a triangle whose tip points right at column 49 (06 R108). -/
theorem groundLit_iff (m : Marker) (row col : Nat) :
    m.groundLit row col = true ↔
      42 ≤ col ∧ ∃ j ≤ 4, (row = 40 + m.row + j ∨ row + j = 40 + m.row) ∧ col ≤ 49 - j := by
  simp only [Marker.groundLit, decide_eq_true_eq, ← offset_eq_iff]
  constructor
  · exact fun ⟨hnear, hleft, hright⟩ => ⟨hleft, _, hnear, rfl, by omega⟩
  · rintro ⟨hleft, j, hj, rfl, hright⟩
    exact ⟨hj, hleft, by omega⟩

/-- A trigger marker is a triangle whose tip points left at column 750 (06 R109). -/
theorem triggerLit_iff (m : Marker) (row col : Nat) :
    m.triggerLit row col = true ↔
      col ≤ 757 ∧ ∃ j ≤ 4, (row = 40 + m.row + j ∨ row + j = 40 + m.row) ∧ 750 + j ≤ col := by
  simp only [Marker.triggerLit, decide_eq_true_eq, ← offset_eq_iff]
  constructor
  · exact fun ⟨hnear, hleft, hright⟩ => ⟨hright, _, hnear, rfl, hleft⟩
  · rintro ⟨hright, j, hj, rfl, hleft⟩
    exact ⟨hj, hleft, hright⟩

/-- A channel's latched ground marker lights the pixel (06 R108). -/
theorem groundAt_of_lit (c : Compositor) (row col : Nat) (ch : Ch) (m : Marker) (hm : c.ground.get ch = some m)
    (hlit : m.groundLit row col = true) : c.groundAt row col ch = some (c.markerColour ch m) := by
  simp only [Compositor.groundAt, hm, hlit, if_true]

theorem groundAt_of_unlit (c : Compositor) (row col : Nat) (ch : Ch)
    (h : ∀ m, c.ground.get ch = some m → ¬m.groundLit row col = true) : c.groundAt row col ch = none := by
  unfold Compositor.groundAt
  split
  · next m hm => exact if_neg (h m hm)
  · rfl

/-- The latched trigger marker lights the pixel (06 R109). -/
theorem triggerAt_of_lit (c : Compositor) (row col : Nat) (ch : Ch) (m : Marker) (hm : c.trigMark = some (ch, m))
    (hlit : m.triggerLit row col = true) : c.triggerAt row col = some (c.markerColour ch m) := by
  simp only [Compositor.triggerAt, hm, hlit, if_true]

theorem triggerAt_of_unlit (c : Compositor) (row col : Nat)
    (h : ∀ ch m, c.trigMark = some (ch, m) → ¬m.triggerLit row col = true) : c.triggerAt row col = none := by
  unfold Compositor.triggerAt
  split
  · next ch m hm => exact if_neg (h ch m hm)
  · rfl

/-- The first channel of the order whose ground marker lights the pixel colours it (06 R108, R110). -/
theorem markerLayer_of_ground (c : Compositor) (before after : List Ch) (ch : Ch) (row col : Nat) (x : Colour)
    (hbefore : ∀ c' ∈ before, c.groundAt row col c' = none) (hx : c.groundAt row col ch = some x) :
    c.markerLayer (before ++ ch :: after) row col = some x := by
  rw [Compositor.markerLayer, List.findSome?_eq_some_iff.mpr ⟨before, ch, after, rfl, hx, hbefore⟩]
  rfl

/-- Where no ground marker lights the pixel the trigger marker decides (06 R109). -/
theorem markerLayer_of_no_ground (c : Compositor) (order : List Ch) (row col : Nat)
    (h : ∀ ch ∈ order, c.groundAt row col ch = none) : c.markerLayer order row col = c.triggerAt row col := by
  rw [Compositor.markerLayer, List.findSome?_eq_none_iff.mpr h]
  rfl

/-! ## The first layer that gives a colour (06 R103) -/

/-- The pixel lies in the cursor's cell while it shows (06 R118). -/
def Compositor.cursorShows (c : Compositor) (row col : Nat) : Prop :=
  c.cursor.on = true ∧ c.slow = true ∧ row / 20 = c.cursor.row ∧ col / 8 = c.cursor.col

theorem pixelColour_of_cursor (s : State) (row col : Nat) (h : s.comp.cursorShows row col) :
    s.pixelColour row col = s.comp.paletteColour 3 := by
  have hcursor : s.comp.cursorLayer row col = some (s.comp.paletteColour 3) := if_pos h
  simp only [State.pixelColour, hcursor, Option.some_or, Option.getD_some]

section

variable {s : State} {row col : Nat}

theorem cursorLayer_of_hidden (h : ¬s.comp.cursorShows row col) : s.comp.cursorLayer row col = none := if_neg h

theorem pixelColour_of_overlay (hcursor : ¬s.comp.cursorShows row col) {x : Colour}
    (hx : s.comp.overlayLayer row col = some x) : s.pixelColour row col = x := by
  simp only [State.pixelColour, cursorLayer_of_hidden hcursor, hx, Option.none_or, Option.some_or, Option.getD_some]

/-- Below the cursor and the overlay come the markers, the planes and the graticule (06 R103). -/
theorem pixelColour_below_overlay (hcursor : ¬s.comp.cursorShows row col)
    (hoverlay : s.comp.overlayLayer row col = none) :
    s.pixelColour row col =
      (((s.comp.markerLayer (drawOrder s.w.order) row col).or (s.planeLayer row col)).or (s.gridLayer row col)).getD
        (s.comp.paletteColour 5) := by
  simp only [State.pixelColour, cursorLayer_of_hidden hcursor, hoverlay, Option.none_or]

theorem pixelColour_of_marker (hcursor : ¬s.comp.cursorShows row col) (hoverlay : s.comp.overlayLayer row col = none)
    {x : Colour} (hx : s.comp.markerLayer (drawOrder s.w.order) row col = some x) : s.pixelColour row col = x := by
  simp only [pixelColour_below_overlay hcursor hoverlay, hx, Option.some_or, Option.getD_some]

theorem pixelColour_of_plane (hcursor : ¬s.comp.cursorShows row col) (hoverlay : s.comp.overlayLayer row col = none)
    (hmarker : s.comp.markerLayer (drawOrder s.w.order) row col = none) {x : Colour}
    (hx : s.planeLayer row col = some x) : s.pixelColour row col = x := by
  simp only [pixelColour_below_overlay hcursor hoverlay, hmarker, hx, Option.none_or, Option.some_or, Option.getD_some]

theorem pixelColour_of_dark (hcursor : ¬s.comp.cursorShows row col) (hoverlay : s.comp.overlayLayer row col = none)
    (hmarker : s.comp.markerLayer (drawOrder s.w.order) row col = none) (hplane : s.planeLayer row col = none) :
    s.pixelColour row col = s.comp.paletteColour (if gridLit s.w.grid row col then 4 else 5) := by
  simp only [pixelColour_below_overlay hcursor hoverlay, hmarker, hplane, Option.none_or, State.gridLayer]
  split <;> rfl

end

/-- Forming the sets in force leaves what every layer but the overlay reads (06 R103). -/
theorem pixelColour_layers (s : State) (row col : Nat) (rowSets : Table Attr) (cellSet : Attr) :
    let u := s.withComp { s.comp with rowSets, cellSet }
    (s.comp.cursorShows row col → u.pixelColour row col = s.comp.paletteColour 3) ∧
    (¬s.comp.cursorShows row col →
      (∀ x, u.comp.overlayLayer row col = some x → u.pixelColour row col = x) ∧
      (u.comp.overlayLayer row col = none →
        (∀ x, s.comp.markerLayer (drawOrder s.w.order) row col = some x → u.pixelColour row col = x) ∧
        (s.comp.markerLayer (drawOrder s.w.order) row col = none →
          (s.planeLit row col → ∃ before c after, drawOrder s.w.order = before ++ c :: after ∧
            s.cell c (col - 50) (row - 40) ≠ 0 ∧ (∀ c' ∈ before, s.cell c' (col - 50) (row - 40) = 0) ∧
            u.pixelColour row col = s.comp.clutColour c (s.cell c (col - 50) (row - 40) / 16)) ∧
          (¬s.planeLit row col →
            u.pixelColour row col = s.comp.paletteColour (if gridLit s.w.grid row col then 4 else 5))))) := by
  intro u
  refine ⟨pixelColour_of_cursor u row col, fun (hcursor : ¬u.comp.cursorShows row col) =>
    ⟨fun x => pixelColour_of_overlay hcursor, fun hoverlay =>
      ⟨fun x => pixelColour_of_marker hcursor hoverlay, fun hmarker => ⟨fun hlit => ?_, fun hdark => ?_⟩⟩⟩⟩
  · obtain ⟨before, c, after, horder, hcell, hbefore, hx⟩ := planeLayer_of_lit u row col hlit
    exact ⟨before, c, after, horder, hcell, hbefore, pixelColour_of_plane hcursor hoverlay hmarker hx⟩
  · exact pixelColour_of_dark hcursor hoverlay hmarker (planeLayer_of_dark u row col hdark)

/-- After the last of the 384 000 pixels the frame has none left (06 R102). -/
theorem nextPlace_eq (n : Nat) (h : n < 384000) :
    (if n + 1 < Config.framePixels then some (n + 1) else none) = if n = 383999 then none else some (n + 1) := by
  unfold Config.framePixels
  by_cases hlast : n = 383999
  · rw [if_neg (by omega), if_pos hlast]
  · rw [if_pos (by omega), if_neg hlast]

end Sys2Proof.Machine

open Sys2Proof Sys2Proof.Machine

/-- Settles O34: a pixel's colour by `pixelColour_layers`; the marker and graticule geometry by the lemma on each shape;
the 24 orders by evaluation. -/
theorem pixelsTakeTheFirstLayer : Obligations.PixelsTakeTheFirstLayer := by
  refine ⟨fun n s hscan hn => ?pixel,
    ⟨drawOrder_perm_below, fun m n hmn hn => drawOrder_strictMono n hn m hmn, rfl, rfl, rfl, rfl⟩,
    fun c order row col => ?markers,
    fun row col =>
      ⟨gridLit_full_iff row col, gridLit_axes_iff row col, gridLit_frame_iff row col, gridLit_none row col⟩⟩
  case pixel =>
    refine ⟨_, _, (exec_pixelFormed_of_scan s n hscan).trans (congrArg _ (formPixel_eq n s)), onlyTouches_comp s _, rfl,
      nextPlace_eq n hn, rfl, rfl, ?_⟩
    rw [formSets_eq]
    exact pixelColour_layers s (n / 800) (n % 800) _ _
  case markers =>
    intro colour ground trigger
    have hground : ∀ ch, (∀ m, ¬ground ch m) → c.groundAt row col ch = none := fun ch hno =>
      groundAt_of_unlit c row col ch fun m hm hlit => hno m ⟨hm, (groundLit_iff m row col).mp hlit⟩
    refine ⟨fun before after ch m horder hbefore ⟨hm, hlit⟩ => ?_, fun hno => ?_⟩
    · rw [horder]
      exact markerLayer_of_ground c before after ch row col _ (fun c' hc' => hground c' (hbefore c' hc'))
        (groundAt_of_lit c row col ch m hm ((groundLit_iff m row col).mpr hlit))
    · rw [markerLayer_of_no_ground c order row col fun ch hch => hground ch (hno ch hch)]
      exact ⟨fun ch m ⟨hm, hlit⟩ => triggerAt_of_lit c row col ch m hm ((triggerLit_iff m row col).mpr hlit),
        fun hnone => triggerAt_of_unlit c row col fun ch m hm hlit =>
          hnone ch m ⟨hm, (triggerLit_iff m row col).mp hlit⟩⟩
end
